-- ==== Sys2Proof/Word.lean ====
section
/-! DEFINITION. The word types of the node: octets and two-octet words, as the frames carry them. -/

namespace Sys2Proof

/-- An octet (R21). -/
abbrev Byte := BitVec 8

/-- A two-octet field or a 16-bit counter (R21, R33). -/
abbrev Word := BitVec 16

end Sys2Proof
end

