-- ==== Sys2Proof/Syntax.lean ====
section
/-! DEFINITION. The commands of the node: one constructor of `Instr` for each row of spec/opcode_table.json, and the operand types they carry (log 4). -/

namespace Sys2Proof

/-- The five strap fields as read from their pins (R58). -/
structure Straps where
  /-- STN5..STN0. -/
  station : BitVec 6
  /-- GRP2..GRP0. -/
  group : BitVec 3
  /-- RATE1, RATE0. -/
  rate : BitVec 2
  /-- PER2..PER0. -/
  period : BitVec 3
  /-- AUXEN. -/
  auxEnabled : Bool
deriving DecidableEq, Repr

/-- The level of the line in the four quarters of one cell; `true` is held (R2, R3). -/
structure CellLevels where
  q1 : Bool
  q2 : Bool
  q3 : Bool
  q4 : Bool
deriving DecidableEq, Repr

/-- What the receiver has when it judges a frame malformed (R29). -/
inductive MalformedReport where
  /-- The samples of the cell in which a shape error shows. -/
  | shape (cell : CellLevels)
  /-- The octets received up to the moment of judgment. -/
  | octets (octets : List Byte)
deriving DecidableEq, Repr

/-- Which of two reports of one moment is taken first (spec/00_scope.md section 6.5, R68; log 6). -/
inductive TakenFirst where
  /-- The request handler's report that its answer was given up. -/
  | answerReport
  /-- The other report of the moment: the transmit error run, or the epoch instant. -/
  | otherReport
deriving DecidableEq, Repr

/-- The order in which the three parts of a quiet for the phase gap are taken: the line-fault flag (`line`),
the owed mark (`owed`) and the posting close (`close`) (R53, R181; log 6). -/
inductive QuietOrder where
  | lineOwedClose
  | lineCloseOwed
  | owedLineClose
  | owedCloseLine
  | closeLineOwed
  | closeOwedLine
deriving DecidableEq, Repr

/-- The commands, one constructor per row of spec/opcode_table.json. Frames come as their octets, first octet first;
`clocks` counts reference clocks. -/
inductive Instr where
  /-- RESET_ASSERTED (R77). -/
  | resetAsserted
  /-- RESET_RELEASE (R77): the strap pins, and whether the line is held at that moment (R192). -/
  | resetRelease (straps : Straps) (lineHeld : Bool)
  /-- START_OPPORTUNITY (R7): `aligned` when the start moment finds a hold no older than a quarter cell (R14). -/
  | startOpportunity (aligned : Bool)
  /-- OPPORTUNITY_MISSED (R14). -/
  | opportunityMissed
  /-- FIRST_OCTET_COMPLETE (R22): the octet. -/
  | firstOctetComplete (octet : Byte)
  /-- MALFORMED_FRAME (R30). -/
  | malformedFrame (report : MalformedReport)
  /-- POST_RECEIVED (R114). -/
  | postReceived (octets : List Byte)
  /-- ANSWER_RECEIVED (R28). -/
  | answerReceived (octets : List Byte)
  /-- ANSWER_WINDOW_TIMEOUT (R9). -/
  | answerWindowTimeout
  /-- READ_STATUS (R165). -/
  | readStatus (octets : List Byte)
  /-- READ_ENTRY (R166). -/
  | readEntry (octets : List Byte)
  /-- READ_GROUP (R166). -/
  | readGroup (octets : List Byte)
  /-- READ_EVENTS (R167). -/
  | readEvents (octets : List Byte)
  /-- ACK_EVENTS (R168). -/
  | ackEvents (octets : List Byte)
  /-- FORGET (R169). -/
  | forget (octets : List Byte)
  /-- QUIET (R170). -/
  | quiet (octets : List Byte)
  /-- RESTART (R171). -/
  | restart (octets : List Byte)
  /-- CONFIGURE_PLAN (R174). -/
  | configurePlan (octets : List Byte)
  /-- CONFIGURE_CAL (R175). -/
  | configureCal (octets : List Byte)
  /-- CONFIGURE_LIMITS (R176). -/
  | configureLimits (octets : List Byte)
  /-- CLOSE_SETUP (R172). -/
  | closeSetup (octets : List Byte)
  /-- UNKNOWN_REQUEST_CODE (R158). -/
  | unknownRequestCode (octets : List Byte)
  /-- TX_SUCCESS (R16). -/
  | txSuccess
  /-- ARBITRATION_LOSS (R15). -/
  | arbitrationLoss
  /-- COLLISION (R15). -/
  | collision (first : TakenFirst)
  /-- DRIVE_FAILURE (R15). -/
  | driveFailure (first : TakenFirst)
  /-- SETUP_TIMER_EXPIRY (R62). -/
  | setupTimerExpiry
  /-- EPOCH_TIMER_EXPIRY (R40). -/
  | epochTimerExpiry
  /-- LISTEN_TIMER_EXPIRY (R63). -/
  | listenTimerExpiry
  /-- LONG_HOLD (R5). -/
  | longHold
  /-- QUIET_FOR_PHASE_GAP (R7). -/
  | quietForPhaseGap (order : QuietOrder)
  /-- MARK_HOLD_END (R10). -/
  | markHoldEnd
  /-- MARK_RECOGNIZED (R11). -/
  | markRecognized (first : TakenFirst)
  /-- MARK_END (R50). -/
  | markEnd
  /-- LINE_STUCK (R12). -/
  | lineStuck
  /-- EXCITE_END (R81). -/
  | exciteEnd
  /-- SETTLE_END (R83). -/
  | settleEnd
  /-- SENSOR_EDGE (R84): clocks since the edge before it; for the first edge, since COUNT was entered. -/
  | sensorEdge (clocks : Nat)
  /-- FIRST_EDGE_TIMEOUT (R84). -/
  | firstEdgeTimeout
  /-- COUNT_WINDOW_END (R86). -/
  | countWindowEnd
  /-- AUX_EDGE (R104): the new level, and the clocks since the edge before it (since the start for the first). -/
  | auxEdge (rising : Bool) (clocks : Nat)
  /-- AUX_EDGE_TIMEOUT (R106). -/
  | auxEdgeTimeout
  /-- FRAME_START (R6). -/
  | frameStart
  /-- LONG_HOLD_RELEASED (R5). -/
  | longHoldReleased
  /-- RESYNC_HOLD_RELEASED (R5). -/
  | resyncHoldReleased
  /-- REQUEST_OTHER_TARGET (R32). -/
  | requestOtherTarget (octets : List Byte)
  /-- REQUEST_IGNORED (R156). -/
  | requestIgnored (octets : List Byte)
deriving DecidableEq, Repr

end Sys2Proof
end

