-- ==== Sys2Proof/Decode.lean ====
section
/-! DEFINITION. Words of the opcode table: no row of spec/opcode_table.json gives bits, so no word spells a command (log 17). The octets of frames are judged in Sys2Proof/Machine/Frames.lean. -/

namespace Sys2Proof

/-- The command a word spells by the table's bits: none, since no row of the table gives bits. -/
def decodeTableWord (_nbits _w : Nat) : Option Instr := none

end Sys2Proof
end

