-- ==== Sys2Proof/Config.lean ====
section
/-! DEFINITION. What one build of the node fixes: the reference clock, the lengths the straps select, and the one value the manual leaves open. -/

namespace Sys2Proof.Config

/-- Reference clocks of one millisecond: the reference runs at 8 MHz (spec/00_scope.md section 5, R39). -/
def clocksPerMs : Nat := 8000

/-- Length of a cell in reference clocks for each value of the rate strap (R4, R58): 80, 40, 20, 10 µs. -/
def cellClocks (rate : BitVec 2) : Nat :=
  match rate.toNat with
  | 0 => 640
  | 1 => 320
  | 2 => 160
  | _ => 80

/-- Round period P in reference clocks for each value of the period strap (R39, R58). -/
def periodClocks (period : BitVec 3) : Nat :=
  match period.toNat with
  | 0 => 800000
  | 1 => 1600000
  | 2 => 4000000
  | 3 => 8000000
  | 4 => 16000000
  | 5 => 40000000
  | 6 => 80000000
  | _ => 240000000

/-- Length of the listen timer in reference clocks, P·(128 + s)/64 for station number s (R63). -/
def listenClocks (period : BitVec 3) (station : BitVec 6) : Nat :=
  periodClocks period * (128 + station.toNat) / 64

/-- The setup window of 4 s (R61). -/
def setupClocks : Nat := 32000000

/-- The first-edge timer of 20 ms (R84). -/
def firstEdgeClocks : Nat := 160000

/-- The aux edge timer of 50 ms (R103). -/
def auxEdgeClocks : Nat := 400000

/-- Run lengths are kept in eighths of a cell (log 3); a cell has eight of them. -/
def cellEighths : Nat := 8

/-- The Q4 sample point, seven eighths of a cell after the hold edge (R3, R5). -/
def q4Sample : Nat := 7

/-- Mark recognition, 2 cells of hold (R11). -/
def markRecognition : Nat := 2 * cellEighths

/-- The stuck limit, 64 cells of hold (R12). -/
def stuckLimit : Nat := 64 * cellEighths

/-- The frame gap, 6 cells of release (R7). -/
def frameGap : Nat := 6 * cellEighths

/-- The answer window, 10 cells of release (R9). -/
def answerWindow : Nat := 10 * cellEighths

/-- The phase gap, 12 cells of release (R7); a mark hold lasts as many (R10). -/
def phaseGap : Nat := 12 * cellEighths

/-- The event log holds up to 16 records (R180). -/
def logCapacity : Nat := 16

/-- The transmit error run that moves an ACTIVE node to MUTE (R18, R67). -/
def errorRunLimit : Nat := 8

/-- FREE VALUE, log 9. R52 gives the detail of a POST-LOST record for a close by a first octet (1) and by a mark (2).
A close by quiet finds no POST, so the manual states no detail for it; in a state where one is found all the same,
the detail is this uninterpreted function of the round count. Safe: nothing can be proved about its value. -/
opaque postLostDetailAtQuiet : Word → Byte

end Sys2Proof.Config
end

