-- ==== Sys2Proof/Machine/Bits.lean ====
section
/-! DEFINITION. Octet packing (high octet first, R21) and saturating counters (spec/00_scope.md section 6.1). -/

namespace Sys2Proof.Machine

/-- The two octets of a 16-bit field, high octet first (R21). -/
def octets16 (w : BitVec 16) : List Byte := [w.extractLsb' 8 8, w.extractLsb' 0 8]

/-- The three octets of a 24-bit field, high octet first (R21). -/
def octets24 (w : BitVec 24) : List Byte := [w.extractLsb' 16 8, w.extractLsb' 8 8, w.extractLsb' 0 8]

/-- The four octets of a 32-bit field, high octet first (R21). -/
def octets32 (w : BitVec 32) : List Byte :=
  [w.extractLsb' 24 8, w.extractLsb' 16 8, w.extractLsb' 8 8, w.extractLsb' 0 8]

/-- A 16-bit field from its octets, high octet first (R21). -/
def join16 (a b : Byte) : BitVec 16 := a ++ b

/-- A 24-bit field from its octets, high octet first (R21). -/
def join24 (a b c : Byte) : BitVec 24 := a ++ b ++ c

/-- A 32-bit field from its octets, high octet first (R21). -/
def join32 (a b c d : Byte) : BitVec 32 := a ++ b ++ c ++ d

/-- A saturating counter of width `w` increased by `n`: it stops at its maximum (spec/00_scope.md section 6.1). -/
def satAdd {w : Nat} (c : BitVec w) (n : Nat) : BitVec w :=
  if c.toNat + n < 2 ^ w then BitVec.ofNat w (c.toNat + n) else BitVec.allOnes w

/-- A saturating counter increased by 1. -/
def satInc {w : Nat} (c : BitVec w) : BitVec w := satAdd c 1

end Sys2Proof.Machine
end

