-- ==== Sys2Proof/Machine/Cells.lean ====
section
/-! DEFINITION. The line code: the cell of a bit (R2), what the receiver reads from a cell (R3), what happens when stations send together, and the read-back of a sender (R15). -/

namespace Sys2Proof.Machine

/-- The quarters a station holds to send a bit: Q1 always, Q2 and Q3 for a 0, Q4 never (R2). `bit` is `true` for a 1. -/
def cellOf (bit : Bool) : CellLevels :=
  ⟨true, !bit, !bit, false⟩

/-- The line when two stations drive one cell: a held quarter prevails over a released one (R2). -/
def superpose (a b : CellLevels) : CellLevels :=
  ⟨a.q1 || b.q1, a.q2 || b.q2, a.q3 || b.q3, a.q4 || b.q4⟩

/-- What the receiver makes of one cell (R3). -/
inductive CellReading where
  | bit (b : Bool)
  /-- Shape error: released at the Q1 sample. -/
  | releasedAtQ1
  /-- Shape error: held at the Q4 sample. -/
  | heldAtQ4
deriving DecidableEq, Repr

/-- The receiver's reading of a cell from its four samples (R3): a shape error at Q1 is found first;
the bit is 0 when Q2 or Q3 is held. -/
def readCell (c : CellLevels) : CellReading :=
  if !c.q1 then .releasedAtQ1
  else if c.q4 then .heldAtQ4
  else .bit !(c.q2 || c.q3)

/-- The bits of an octet, most significant first (R2). -/
def octetBits (o : Byte) : List Bool :=
  [o.getLsbD 7, o.getLsbD 6, o.getLsbD 5, o.getLsbD 4, o.getLsbD 3, o.getLsbD 2, o.getLsbD 1, o.getLsbD 0]

/-- The cells of a frame, in the order they are sent (R2, R21). -/
def frameCells (octets : List Byte) : List CellLevels :=
  (octets.flatMap octetBits).map cellOf

/-- The disagreements a sender can read back in the data quarters of a cell it sends (R15). -/
inductive Disagreement where
  /-- The line reads released where the node holds it: a drive failure in any octet. -/
  | readsReleased
  /-- The line reads held where the node releases it: arbitration loss or collision, by the octet. -/
  | readsHeld
deriving DecidableEq, Repr

/-- The read-back of one cell at its Q2 and Q3 samples: own drive against line level, first disagreement first (R15). -/
def readBack (own line : CellLevels) : Option Disagreement :=
  if own.q2 && !line.q2 then some .readsReleased
  else if !own.q2 && line.q2 then some .readsHeld
  else if own.q3 && !line.q3 then some .readsReleased
  else if !own.q3 && line.q3 then some .readsHeld
  else none

/-- How an attempt ends, apart from an abort by mark (R15). -/
inductive AttemptOutcome where
  | success
  | driveFailure
  | arbitrationLoss
  | collision
deriving DecidableEq, Repr

/-- The outcome of sending `own` bits while the line shows `line` cells: `n` counts the bits already sent, and a
held reading within the first 8 cells is an arbitration loss, after them a collision (R15). A shape error in a cell
that the node is sending, a Q1 that reads released before the data quarters are read or a hold at Q4, is a drive failure.
A held reading in a cell that is held at Q4 too leaves the outcome waiting, the node having stopped driving: it is the one
given here when the line is released before 2 cells, and an abort, which MARK_RECOGNIZED reports, when a mark is recognized;
the same abort overtakes any other hold at Q4 that becomes a mark. -/
def attemptOutcome : Nat → List Bool → List CellLevels → AttemptOutcome
  | n, b :: own, c :: line =>
    if !c.q1 then .driveFailure
    else
      match readBack (cellOf b) c with
      | some .readsReleased => .driveFailure
      | some .readsHeld => if n < 8 then .arbitrationLoss else .collision
      | none => if c.q4 then .driveFailure else attemptOutcome (n + 1) own line
  | _, _, _ => .success

end Sys2Proof.Machine
end

