-- ==== Sys2Proof/Machine/Frames.lean ====
section
/-! DEFINITION. The three frames: their fields (R24, R26, R28), their octets as sent (R21), the check (R23), and the receiver's judgment of the octets of a frame (R29). -/

namespace Sys2Proof.Machine

/-- The seven qualities of a reading (R24). -/
inductive Quality where
  | good
  | clipped
  | unstable
  | outOfBand
  | noSignal
  | overrun
  | notSampled
deriving DecidableEq, Repr

/-- The quality codes of R24. -/
def Quality.code : Quality → BitVec 3
  | .good => 0
  | .clipped => 1
  | .unstable => 2
  | .outOfBand => 3
  | .noSignal => 4
  | .overrun => 5
  | .notSampled => 6

/-- A reading: a quality with the value it carries; codes 0 to 3 carry one, 4 to 6 do not (R24). -/
inductive Reading where
  | good (value : BitVec 24)
  | clipped (value : BitVec 24)
  | unstable (value : BitVec 24)
  | outOfBand (value : BitVec 24)
  | noSignal
  | overrun
  | notSampled
deriving DecidableEq, Repr

/-- The quality of a reading (R24). -/
def Reading.quality : Reading → Quality
  | .good _ => .good
  | .clipped _ => .clipped
  | .unstable _ => .unstable
  | .outOfBand _ => .outOfBand
  | .noSignal => .noSignal
  | .overrun => .overrun
  | .notSampled => .notSampled

/-- The value of a reading, when its quality carries one (R24). -/
def Reading.value : Reading → Option (BitVec 24)
  | .good v => some v
  | .clipped v => some v
  | .unstable v => some v
  | .outOfBand v => some v
  | .noSignal => none
  | .overrun => none
  | .notSampled => none

/-- The value a contributor adds to its group: that of a GOOD or CLIPPED reading (R139). -/
def Reading.usable : Reading → Option (BitVec 24)
  | .good v => some v
  | .clipped v => some v
  | .unstable _ => none
  | .outOfBand _ => none
  | .noSignal => none
  | .overrun => none
  | .notSampled => none

/-- A POST (R24). The aux field is its two octets: status in bits 15 and 14, duty below; it is passed on as it stands (R25). -/
structure Post where
  source : BitVec 6
  tag : Byte
  group : BitVec 3
  reading : Reading
  aux : Option (BitVec 16)
  alarm : Bool
deriving DecidableEq, Repr

/-- A REQUEST (R26). -/
structure Request where
  source : BitVec 6
  target : BitVec 6
  code : Byte
  args : List Byte
deriving DecidableEq, Repr

/-- An ANSWER (R28). The status is an octet: a received status is not examined. -/
structure Answer where
  source : BitVec 6
  code : Byte
  status : Byte
  payload : List Byte
deriving DecidableEq, Repr

/-- A frame of any kind. -/
inductive Frame where
  | post (p : Post)
  | answer (a : Answer)
  | request (r : Request)
deriving DecidableEq, Repr

/-- The frame kind of a first octet (R21). -/
inductive FrameKind where
  | post
  | answer
  | request
  | invalid
deriving DecidableEq, Repr

/-- The frame kind in bits 7 and 6 of a first octet (R21). -/
def firstOctetKind (octet : Byte) : FrameKind :=
  match (octet.extractLsb' 6 2).toNat with
  | 0 => .post
  | 1 => .answer
  | 2 => .request
  | _ => .invalid

/-- The source station number in bits 5 to 0 of a first octet (R21). -/
def firstOctetSource (octet : Byte) : BitVec 6 := octet.extractLsb' 0 6

/-! ### The check (R23) -/

/-- One message bit into the check register: generator x^16 + x^12 + x^5 + 1 (R23). -/
def checkBit (r : BitVec 16) (bit : Bool) : BitVec 16 :=
  if r.msb != bit then (r <<< 1) ^^^ 0x1021#16 else r <<< 1

/-- One octet into the check register, most significant bit first (R23). -/
def checkOctet (r : BitVec 16) (octet : Byte) : BitVec 16 := (octetBits octet).foldl checkBit r

/-- The check of a list of octets: the register, preset to all ones, after all of them (R23). -/
def check (octets : List Byte) : BitVec 16 := octets.foldl checkOctet 0xFFFF#16

/-- A frame body followed by its check, high octet first (R23). -/
def withCheck (body : List Byte) : List Byte := body ++ octets16 (check body)

/-! ### Frames as sent (R21, R24, R26, R28) -/

/-- The octets of a present 24-bit value, none when it is absent. -/
def valueOctets : Option (BitVec 24) → List Byte
  | some v => octets24 v
  | none => []

/-- The octets of a present aux field, none when it is absent. -/
def auxOctets : Option (BitVec 16) → List Byte
  | some a => octets16 a
  | none => []

/-- Octet 3 of a POST: group, quality, aux-present, alarm flag (R24). -/
def Post.flags (p : Post) : Byte :=
  p.group ++ p.reading.quality.code ++ BitVec.ofBool p.aux.isSome ++ BitVec.ofBool p.alarm

/-- The octets of a POST (R24). -/
def Post.octets (p : Post) : List Byte :=
  withCheck ([0#2 ++ p.source, p.tag, p.flags] ++ valueOctets p.reading.value ++ auxOctets p.aux)

/-- The octets of an ANSWER (R28). -/
def Answer.octets (a : Answer) : List Byte :=
  withCheck ([1#2 ++ a.source, a.code, a.status, BitVec.ofNat 8 a.payload.length] ++ a.payload)

/-- The octets of a REQUEST; bits 7 and 6 of octet 2 are sent as 0 (R26). -/
def Request.octets (r : Request) : List Byte :=
  withCheck ([2#2 ++ r.source, 0#2 ++ r.target, r.code, BitVec.ofNat 8 r.args.length] ++ r.args)

/-- The octets of a frame. -/
def Frame.octets : Frame → List Byte
  | .post p => p.octets
  | .answer a => a.octets
  | .request r => r.octets

/-! ### The receiver's judgment (R29) -/

/-- The conditions of R29 that the octets of a frame can show. -/
inductive MalformedCause where
  | kindCode
  | postSource
  | requestTarget
  | postQuality
  | argumentLength
  | payloadLength
  | checkMismatch
deriving DecidableEq, Repr

/-- What the receiver makes of the octets it has: not yet a whole frame, a malformed one, or a valid one. -/
inductive Judgment where
  | incomplete
  | malformed (cause : MalformedCause)
  | valid (frame : Frame)
deriving DecidableEq, Repr

/-- The comparison of R23 at the end of a frame: `body` against the two check octets received. -/
def judgeCheck (body : List Byte) (hi lo : Byte) (frame : Frame) : Judgment :=
  if check body = join16 hi lo then .valid frame else .malformed .checkMismatch

/-- The reading of a quality code that carries a value (R24). -/
def valuedReading (code : Nat) (value : BitVec 24) : Reading :=
  match code with
  | 0 => .good value
  | 1 => .clipped value
  | 2 => .unstable value
  | _ => .outOfBand value

/-- The reading of a quality code that carries none (R24). -/
def unvaluedReading (code : Nat) : Reading :=
  match code with
  | 4 => .noSignal
  | 5 => .overrun
  | _ => .notSampled

/-- The judgment of a POST from its octet 2 on (R24, R29). Octet 3 fixes the length; quality 7 is judged there. -/
def judgePost (o1 : Byte) (octets : List Byte) : Judgment :=
  match octets with
  | tag :: flags :: rest =>
    let code := (flags.extractLsb' 2 3).toNat
    let post (reading : Reading) (aux : Option (BitVec 16)) : Frame :=
      .post ⟨firstOctetSource o1, tag, flags.extractLsb' 5 3, reading, aux, flags.getLsbD 0⟩
    if code = 7 then .malformed .postQuality
    else if code < 4 then
      if flags.getLsbD 1 then
        match rest with
        | v1 :: v2 :: v3 :: a1 :: a2 :: hi :: lo :: _ =>
          judgeCheck [o1, tag, flags, v1, v2, v3, a1, a2] hi lo
            (post (valuedReading code (join24 v1 v2 v3)) (some (join16 a1 a2)))
        | _ => .incomplete
      else
        match rest with
        | v1 :: v2 :: v3 :: hi :: lo :: _ =>
          judgeCheck [o1, tag, flags, v1, v2, v3] hi lo (post (valuedReading code (join24 v1 v2 v3)) none)
        | _ => .incomplete
    else
      if flags.getLsbD 1 then
        match rest with
        | a1 :: a2 :: hi :: lo :: _ =>
          judgeCheck [o1, tag, flags, a1, a2] hi lo (post (unvaluedReading code) (some (join16 a1 a2)))
        | _ => .incomplete
      else
        match rest with
        | hi :: lo :: _ => judgeCheck [o1, tag, flags] hi lo (post (unvaluedReading code) none)
        | _ => .incomplete
  | _ => .incomplete

/-- The judgment of a REQUEST from its octet 2 on (R26, R29): target 0 at octet 2, argument length over 6 at octet 4. -/
def judgeRequest (o1 : Byte) (octets : List Byte) : Judgment :=
  match octets with
  | o2 :: rest =>
    if o2.extractLsb' 0 6 = 0#6 then .malformed .requestTarget
    else
      match rest with
      | code :: len :: tail =>
        if 6 < len.toNat then .malformed .argumentLength
        else
          match tail.drop len.toNat with
          | hi :: lo :: _ =>
            judgeCheck (o1 :: o2 :: code :: len :: tail.take len.toNat) hi lo
              (.request ⟨firstOctetSource o1, o2.extractLsb' 0 6, code, tail.take len.toNat⟩)
          | _ => .incomplete
      | _ => .incomplete
  | _ => .incomplete

/-- The judgment of an ANSWER from its octet 2 on (R28, R29): payload length over 24 at octet 4. -/
def judgeAnswer (o1 : Byte) (octets : List Byte) : Judgment :=
  match octets with
  | code :: status :: len :: tail =>
    if 24 < len.toNat then .malformed .payloadLength
    else
      match tail.drop len.toNat with
      | hi :: lo :: _ =>
        judgeCheck (o1 :: code :: status :: len :: tail.take len.toNat) hi lo
          (.answer ⟨firstOctetSource o1, code, status, tail.take len.toNat⟩)
      | _ => .incomplete
  | _ => .incomplete

/-- The receiver's judgment of the octets of a frame, first octet first: the first condition found decides (R29).
Octets after the declared length are not read: they begin a further frame (R30). -/
def judge (octets : List Byte) : Judgment :=
  match octets with
  | [] => .incomplete
  | o1 :: rest =>
    match firstOctetKind o1 with
    | .invalid => .malformed .kindCode
    | .post =>
      if firstOctetSource o1 = 0#6 ∨ firstOctetSource o1 = 63#6 then .malformed .postSource
      else judgePost o1 rest
    | .answer => judgeAnswer o1 rest
    | .request => judgeRequest o1 rest

end Sys2Proof.Machine
end

