-- ==== Sys2Proof/Machine/Store.lean ====
section
/-! DEFINITION. The configuration store (R173): its fields and defaults (R98, R145), its 119-octet image and digest (R38), and the reading of the three CONFIGURE arguments (R37). -/

namespace Sys2Proof.Machine

/-- The sample plan of both plan sections, lapse limit included (R98, R173). -/
structure Plan where
  /-- Band-low in Hz. -/
  bandLow : BitVec 16
  /-- Band-high in Hz. -/
  bandHigh : BitVec 16
  /-- Excite mode: `true` for PLUCK, `false` for SWEEP. -/
  pluck : Bool
  /-- N as its code: 0 for 32, 1 for 64, 2 for 128, 3 for 256. -/
  periods : BitVec 2
  /-- Sweep time in ms. -/
  sweep : BitVec 8
  /-- Settle in ms. -/
  settle : BitVec 8
  /-- Stability tolerance in ppm. -/
  tolerance : BitVec 16
  /-- Lapse limit. -/
  lapse : BitVec 4
deriving DecidableEq, Repr

/-- The calibration (R98). -/
structure Cal where
  zero : BitVec 24
  /-- Signed. -/
  gain : BitVec 16
deriving DecidableEq, Repr

/-- The basis of a limit record (R145). -/
inductive Basis where
  | sum
  | mean
  | min
  | max
deriving DecidableEq, Repr

/-- The basis codes of R37. -/
def Basis.code : Basis → BitVec 2
  | .sum => 0
  | .mean => 1
  | .min => 2
  | .max => 3

/-- The basis of a code (R37). -/
def basisOf (code : BitVec 2) : Basis :=
  match code.toNat with
  | 0 => .sum
  | 1 => .mean
  | 2 => .min
  | _ => .max

/-- The limit record of one group (R145). -/
structure LimitRecord where
  watched : Bool
  basis : Basis
  /-- Incomplete-alarm rounds; 0 is off. -/
  rounds : BitVec 4
  /-- Signed. -/
  high : BitVec 32
  /-- Signed. -/
  low : BitVec 32
  hysteresis : BitVec 32
deriving DecidableEq, Repr

/-- The configuration store (R173). -/
structure Store where
  plan : Plan
  cal : Cal
  limits : Vector LimitRecord 8
deriving DecidableEq, Repr

/-- N, the number of sensor periods counted (R85, R37). -/
def Plan.count (p : Plan) : Nat :=
  match p.periods.toNat with
  | 0 => 32
  | 1 => 64
  | 2 => 128
  | _ => 256

/-- The default plan (R98; the lapse limit's default is that of R126). -/
def defaultPlan : Plan :=
  { bandLow := 400, bandHigh := 6000, pluck := false, periods := 2,
    sweep := 50, settle := 20, tolerance := 2000, lapse := 3 }

/-- The default calibration (R98). -/
def defaultCal : Cal := { zero := 0, gain := 4096 }

/-- The default limit record: high 2,147,483,647 and low −2,147,483,648 (R145). -/
def defaultLimit : LimitRecord :=
  { watched := false, basis := .sum, rounds := 0, high := 0x7FFFFFFF, low := 0x80000000, hysteresis := 0 }

/-- The store after power-on and RESET (R173). -/
def defaultStore : Store :=
  { plan := defaultPlan, cal := defaultCal, limits := Vector.replicate 8 defaultLimit }

/-- The limit record of group `g`. -/
def Store.limit (s : Store) (g : Fin 8) : LimitRecord := s.limits[g]

/-- The store with the limit record of group `g` replaced. -/
def Store.withLimit (s : Store) (g : Fin 8) (r : LimitRecord) : Store :=
  { s with limits := s.limits.set g r }

/-! ### Image and digest (R38) -/

/-- Plan section 1 as octets 2 to 6 of its argument (R37). -/
def Plan.section1 (p : Plan) : List Byte :=
  octets16 p.bandLow ++ octets16 p.bandHigh ++ [BitVec.ofBool p.pluck ++ 0#5 ++ p.periods]

/-- Plan section 2 as octets 2 to 6 of its argument (R37). -/
def Plan.section2 (p : Plan) : List Byte :=
  [p.sweep, p.settle] ++ octets16 p.tolerance ++ [0#4 ++ p.lapse]

/-- The calibration as its argument (R37). -/
def Cal.image (c : Cal) : List Byte := octets24 c.zero ++ octets16 c.gain

/-- Octet 2 of limit section 1 (R37). -/
def LimitRecord.section1 (r : LimitRecord) : Byte :=
  BitVec.ofBool r.watched ++ 0#1 ++ r.basis.code ++ r.rounds

/-- The 13 octets of one group in the image (R38). -/
def LimitRecord.image (r : LimitRecord) : List Byte :=
  [r.section1] ++ octets32 r.high ++ octets32 r.low ++ octets32 r.hysteresis

/-- The 119-octet configuration image (R38). -/
def Store.image (s : Store) : List Byte :=
  s.plan.section1 ++ s.plan.section2 ++ s.cal.image ++ s.limits.toList.flatMap LimitRecord.image

/-- The config digest: the check of the image (R38, R177). -/
def Store.digest (s : Store) : BitVec 16 := check s.image

/-! ### The CONFIGURE arguments (R37) -/

/-- The store a CONFIGURE-PLAN argument writes, `none` when the argument is refused (R37, R174). -/
def configurePlan (args : List Byte) (s : Store) : Option Store :=
  match args with
  | [sec, a, b, c, d, e] =>
    if sec = 1#8 then
      let low := (join16 a b).toNat
      let high := (join16 c d).toNat
      if 200 ≤ low ∧ low ≤ 7999 ∧ low + 1 ≤ high ∧ high ≤ 8000 ∧ e.extractLsb' 2 5 = 0#5 then
        some { s with plan := { s.plan with bandLow := join16 a b, bandHigh := join16 c d,
                                            pluck := e.getLsbD 7, periods := e.extractLsb' 0 2 } }
      else none
    else if sec = 2#8 then
      let tolerance := (join16 c d).toNat
      if 10 ≤ a.toNat ∧ a.toNat ≤ 200 ∧ 100 ≤ tolerance ∧ tolerance ≤ 50000 ∧
          e.extractLsb' 4 4 = 0#4 ∧ e.extractLsb' 0 4 ≠ 0#4 then
        some { s with plan := { s.plan with sweep := a, settle := b, tolerance := join16 c d,
                                            lapse := e.extractLsb' 0 4 } }
      else none
    else none
  | _ => none

/-- The store a CONFIGURE-CAL argument writes, `none` when the argument is refused (R37, R175). -/
def configureCal (args : List Byte) (s : Store) : Option Store :=
  match args with
  | [a, b, c, d, e] =>
    if (join24 a b c).toNat ≤ 6400000 then
      some { s with cal := { zero := join24 a b c, gain := join16 d e } }
    else none
  | _ => none

/-- The bounds of R176: low below high, and the hysteresis at most their exact difference. -/
def boundsAgree (high low hysteresis : BitVec 32) : Bool :=
  low.toInt < high.toInt && (hysteresis.toNat : Int) ≤ high.toInt - low.toInt

/-- The group in bits 2 to 0 of the first octet of a limit section (R37). -/
def limitGroup (o1 : Byte) : Fin 8 := (o1.extractLsb' 0 3).toFin

/-- The limit record a CONFIGURE-LIMITS argument writes over `r`, the stored record of its group; `none` when the
argument is refused. Sections 2 to 4 are judged against the stored record (R37, R176). -/
def configureLimitRecord (args : List Byte) (r : LimitRecord) : Option LimitRecord :=
  match args with
  | [o1, b] =>
    if o1.extractLsb' 4 4 = 1#4 ∧ o1.getLsbD 3 = false ∧ b.getLsbD 6 = false then
      some { r with watched := b.getLsbD 7, basis := basisOf (b.extractLsb' 4 2), rounds := b.extractLsb' 0 4 }
    else none
  | [o1, a, b, c, d] =>
    let x := join32 a b c d
    if o1.getLsbD 3 = true then none
    else if o1.extractLsb' 4 4 = 2#4 ∧ boundsAgree x r.low r.hysteresis = true then some { r with high := x }
    else if o1.extractLsb' 4 4 = 3#4 ∧ boundsAgree r.high x r.hysteresis = true then some { r with low := x }
    else if o1.extractLsb' 4 4 = 4#4 ∧ boundsAgree r.high r.low x = true then some { r with hysteresis := x }
    else none
  | _ => none

/-- The store a CONFIGURE-LIMITS argument writes, `none` when the argument is refused (R37, R176). -/
def configureLimits (args : List Byte) (s : Store) : Option Store :=
  match args with
  | o1 :: _ => (configureLimitRecord args (s.limit (limitGroup o1))).map (s.withLimit (limitGroup o1))
  | [] => none

end Sys2Proof.Machine
end

