-- ==== Sys2Proof/Machine/State.lean ====
section
/-! DEFINITION. The state of the node, block by block (spec/00_scope.md section 3), as plain data, and its value after reset. -/

namespace Sys2Proof.Machine

/-- A timer of the reference clock: `none` when stopped, `some n` when it runs since it was loaded with `n` clocks (log 2). -/
abbrev Timer := Option Nat

/-! ### Node state machine -/

/-- The node state (R60). -/
inductive NodeState where
  | setup
  | listen
  | active
  | mute
  | barred
deriving DecidableEq, Repr

/-- The adoption state of LISTEN (spec/04_node_states.md section 4.4). -/
inductive Adoption where
  | none
  | silent
  | posted
deriving DecidableEq, Repr

/-- The state of the node state machine (R78). -/
structure Node where
  /-- RESET is held low, or power-on is not over (R77). -/
  resetHeld : Bool
  state : NodeState
  straps : Straps
  setupTimer : Timer
  adoption : Adoption
  /-- 0..2 (R65). -/
  silentMarks : Nat
  listenClaim : Bool
  dupSuspect : Bool
  collisionNote : Bool
deriving DecidableEq, Repr

/-! ### Line interface and receiver -/

/-- The line condition (R5). -/
inductive LineCondition where
  | gap
  | resync
  | opened
  | frame
  | longHold
  | marked
deriving DecidableEq, Repr

/-- A frame the node sends (R13). -/
inductive TxFrame where
  | post (p : Post)
  | answer (a : Answer)
deriving DecidableEq, Repr

/-- The transmit slot (R13). -/
inductive Slot where
  | empty
  | waiting (f : TxFrame)
  | sending (f : TxFrame)
deriving DecidableEq, Repr

/-- The state of the line interface and the receiver (R1, R5, R9, R12, R13, R18, R31). -/
structure Line where
  cond : LineCondition
  /-- The line level last reported. -/
  lineHeld : Bool
  /-- Eighths of a cell, the last threshold the run reached (log 3). -/
  holdRun : Nat
  /-- Eighths of a cell, the last threshold the run reached (log 3). -/
  releasedRun : Nat
  /-- A frame is being received (R6): in FRAME, and in a LONG-HOLD that grew out of a frame's cell. -/
  receiving : Bool
  /-- The answer window is open (R9). -/
  window : Bool
  /-- The line-fault flag (R12). -/
  fault : Bool
  slot : Slot
  /-- The transmit error run, 0..8 (R18). -/
  txRun : Nat
  /-- The receive error counter (R31). -/
  rxErrors : BitVec 16
  /-- The node holds a mark (R10). -/
  markHold : Bool
deriving DecidableEq, Repr

/-! ### Round controller -/

/-- The round phase (R50). -/
inductive Phase where
  | quietWait
  | mark
  | posting
  | request
deriving DecidableEq, Repr

/-- The owed cause, in the order of the table of R41. -/
inductive OwedCause where
  | window
  | marked
  | frameOrGap
  | resync
  | opened
deriving DecidableEq, Repr

/-- The state of the round controller (R56). -/
structure Round where
  epochTimer : Timer
  listenTimer : Timer
  roundCount : BitVec 16
  tag : BitVec 8
  phase : Phase
  /-- The mark-owed flag with its cause; `none` when clear. -/
  owed : Option OwedCause
  /-- The EPOCH output. -/
  epochOut : Bool
  muteCount : BitVec 8
  marksOriginated : BitVec 16
  marksDeferred : BitVec 8
  postsLost : BitVec 16
deriving DecidableEq, Repr

/-! ### Sampler -/

/-- The sampler's stage (R80). -/
inductive SamplerStage where
  | idle
  | excite
  | settle
  | count
deriving DecidableEq, Repr

/-- The reading under construction: stage timer, edges and period counts, and the plan and calibration taken at the start (R80, R85). -/
structure Work where
  /-- The excitation, the settle time, the first-edge timer or the count window. -/
  timer : Timer
  /-- Edge 0 has been seen. -/
  started : Bool
  /-- Periods counted since edge 0. -/
  edges : Nat
  c1 : Nat
  c2 : Nat
  plan : Plan
  cal : Cal
deriving DecidableEq, Repr

/-- The state of the sampler (R100). The coil is driven in EXCITE and in no other stage (R80). -/
structure Sampler where
  stage : SamplerStage
  work : Work
  finished : Option Reading
  lastOwn : Quality
  overruns : BitVec 16
deriving DecidableEq, Repr

/-! ### Aux channel -/

/-- The aux channel's stage (R103). -/
inductive AuxStage where
  | idle
  | measuring
deriving DecidableEq, Repr

/-- The status of an aux result (R107). -/
inductive AuxStatus where
  | ok
  | stuckHigh
  | stuckLow
  | erratic
deriving DecidableEq, Repr

/-- A finished aux result (R107). -/
structure AuxResult where
  status : AuxStatus
  duty : BitVec 14
deriving DecidableEq, Repr

/-- The state of the aux channel (R109). Its enable is the latched AUXEN strap (R102). -/
structure Aux where
  stage : AuxStage
  /-- Level of the AUX input. -/
  pin : Bool
  edgeTimer : Timer
  started : Bool
  edgeCount : Nat
  /-- High time of the period being timed, once its falling edge has come. -/
  openHigh : Nat
  /-- H. -/
  high : Nat
  /-- T. -/
  total : Nat
  longest : Nat
  shortest : Nat
  result : Option AuxResult
deriving DecidableEq, Repr

/-! ### Station table -/

/-- The presence state of an entry (R112). -/
inductive EntryState where
  | vacant
  | seen
  | present
  | lapsing
  | lapsed
deriving DecidableEq, Repr

/-- A station-table entry (R112). -/
structure Entry where
  state : EntryState
  group : BitVec 3
  lastTag : BitVec 8
  lastQuality : Quality
  lastValue : Option (BitVec 24)
  lastAux : Option (BitVec 16)
  alarm : Bool
  missRun : Nat
  heard : BitVec 16
  misses : BitVec 16
  lastHeard : BitVec 16
deriving DecidableEq, Repr

/-- The state of the station table (R133). Entry `i` is that of station `i + 1`. -/
structure Table where
  entries : Vector Entry 62
  intake : List Post
  misaligned : BitVec 16
deriving DecidableEq, Repr

/-! ### Group aggregator -/

/-- Minimum, maximum and mean of a group with contributors (R136). -/
structure Extremes where
  minStation : BitVec 6
  minimum : Int
  maxStation : BitVec 6
  maximum : Int
  mean : Int
deriving DecidableEq, Repr

/-- A group record (R136). -/
structure GroupRecord where
  expected : Nat
  contributors : Nat
  complete : Bool
  sum : Int
  extremes : Option Extremes
  lastClose : BitVec 16
deriving DecidableEq, Repr

/-- The limit state of a group (R146). -/
inductive LimitState where
  | normal
  | high
  | low
deriving DecidableEq, Repr

/-- What the aggregator holds for one group (R136, R146, R150). -/
structure GroupCell where
  record : GroupRecord
  limit : LimitState
  /-- The incomplete run. -/
  run : BitVec 8
deriving DecidableEq, Repr

/-- The state of the group aggregator (R155). -/
structure Groups where
  cells : Vector GroupCell 8
  /-- The ALARM output. -/
  alarm : Bool
deriving DecidableEq, Repr

/-! ### Request handler -/

/-- The awaited effect (R163). -/
inductive Awaited where
  | none
  | quiet (rounds : BitVec 8)
  | restart
  | closeSetup
deriving DecidableEq, Repr

/-- The state of the request handler (R178). -/
structure Handler where
  store : Store
  digest : BitVec 16
  awaited : Awaited
deriving DecidableEq, Repr

/-! ### Event log -/

/-- The 18 kinds of event record (R36). -/
inductive EventKind where
  | setupClosed
  | strapInvalid
  | markDeferred
  | sampleOverrun
  | sensorFault
  | sensorRecovered
  | postLost
  | stationNew
  | stationLapsed
  | stationReturned
  | groupLimit
  | groupIncomplete
  | tagSlip
  | txErrorRun
  | duplicateNumber
  | lineStuck
  | lineReleased
  | restarted
deriving DecidableEq, Repr

/-- An event record (R179). -/
structure EventRecord where
  kind : EventKind
  roundCount : BitVec 16
  station : BitVec 6
  detail : BitVec 8
deriving DecidableEq, Repr

/-- The state of the event log (R189), oldest record first. -/
structure EventLog where
  records : List EventRecord
  dropped : BitVec 8
deriving DecidableEq, Repr

/-! ### The node -/

/-- The state of the node, one field per block, and the queue of waiting commands (log 15). -/
structure State where
  node : Node
  line : Line
  round : Round
  sampler : Sampler
  aux : Aux
  table : Table
  groups : Groups
  handler : Handler
  log : EventLog
  pending : List Instr
deriving DecidableEq, Repr

/-- No event stops the node: the manual gives every one an effect, so there is no fault and nothing raises one (safe). -/
inductive Fault where
deriving DecidableEq, Repr

/-- Why a command has no meaning. -/
inductive Refusal where
  /-- A command without a meaning in this model, raised by an arm of `exec` that is rejected by name; no arm is. Safe. -/
  | notModelled (mnemonic : String)
deriving DecidableEq, Repr

/-! ### One field replaced -/

/-- The state with the node state machine's part replaced. -/
def State.withNode (s : State) (x : Node) : State := { s with node := x }

/-- The state with the line interface's part replaced. -/
def State.withLine (s : State) (x : Line) : State := { s with line := x }

/-- The state with the round controller's part replaced. -/
def State.withRound (s : State) (x : Round) : State := { s with round := x }

/-- The state with the sampler's part replaced. -/
def State.withSampler (s : State) (x : Sampler) : State := { s with sampler := x }

/-- The state with the aux channel's part replaced. -/
def State.withAux (s : State) (x : Aux) : State := { s with aux := x }

/-- The state with the station table replaced. -/
def State.withTable (s : State) (x : Table) : State := { s with table := x }

/-- The state with the group aggregator's part replaced. -/
def State.withGroups (s : State) (x : Groups) : State := { s with groups := x }

/-- The state with the request handler's part replaced. -/
def State.withHandler (s : State) (x : Handler) : State := { s with handler := x }

/-- The state with the event log replaced. -/
def State.withLog (s : State) (x : EventLog) : State := { s with log := x }

/-- The state with the queue replaced. -/
def State.withPending (s : State) (x : List Instr) : State := { s with pending := x }

/-! ### Values after reset -/

/-- Straps with every pin low (DESIGN CHOICE, log 1: the manual gives the pins no value). -/
def Straps.allLow : Straps :=
  { station := 0, group := 0, rate := 0, period := 0, auxEnabled := false }

/-- The node state machine at reset release with the straps latched: SETUP, setup timer loaded with 4 s (R61, R77, R78). -/
def Node.atRelease (straps : Straps) : Node :=
  { resetHeld := false, state := .setup, straps := straps, setupTimer := some Config.setupClocks,
    adoption := .none, silentMarks := 0, listenClaim := false, dupSuspect := false, collisionNote := false }

/-- The line interface at reset release, with the level the line has then (R1, R5, R9, R12, R13, R18, R31, R192). -/
def Line.atRelease (held : Bool) : Line :=
  { cond := .resync, lineHeld := held, holdRun := 0, releasedRun := 0, receiving := false, window := false,
    fault := false, slot := .empty, txRun := 0, rxErrors := 0, markHold := false }

/-- The round controller at reset release (R56). -/
def Round.atRelease : Round :=
  { epochTimer := none, listenTimer := none, roundCount := 0, tag := 0, phase := .quietWait, owed := none,
    epochOut := false, muteCount := 0, marksOriginated := 0, marksDeferred := 0, postsLost := 0 }

/-- No reading under construction (R100; the plan and calibration copies are the defaults, log 14). -/
def Work.cleared : Work :=
  { timer := none, started := false, edges := 0, c1 := 0, c2 := 0, plan := defaultPlan, cal := defaultCal }

/-- The sampler at reset release (R100). -/
def Sampler.atRelease : Sampler :=
  { stage := .idle, work := Work.cleared, finished := none, lastOwn := .good, overruns := 0 }

/-- The aux channel idle with nothing held, at the level its input has (R109). -/
def Aux.cleared (pin : Bool) : Aux :=
  { stage := .idle, pin := pin, edgeTimer := none, started := false, edgeCount := 0, openHigh := 0,
    high := 0, total := 0, longest := 0, shortest := 0, result := none }

/-- A VACANT entry with its fields cleared (R112). -/
def Entry.vacant : Entry :=
  { state := .vacant, group := 0, lastTag := 0, lastQuality := .good, lastValue := none, lastAux := none,
    alarm := false, missRun := 0, heard := 0, misses := 0, lastHeard := 0 }

/-- The station table cleared (R133). -/
def Table.cleared : Table :=
  { entries := Vector.replicate 62 Entry.vacant, intake := [], misaligned := 0 }

/-- A cleared group record (R137). -/
def GroupRecord.cleared : GroupRecord :=
  { expected := 0, contributors := 0, complete := false, sum := 0, extremes := none, lastClose := 0 }

/-- The group aggregator cleared (R137, R155). -/
def Groups.cleared : Groups :=
  { cells := Vector.replicate 8 { record := GroupRecord.cleared, limit := .normal, run := 0 }, alarm := false }

/-- The request handler at reset release (R178). -/
def Handler.atRelease : Handler :=
  { store := defaultStore, digest := defaultStore.digest, awaited := .none }

/-- The event log empty (R189). -/
def EventLog.cleared : EventLog := { records := [], dropped := 0 }

/-- The node right after the release of RESET with these straps, line level and AUX level (R77), its queue empty. -/
def State.atRelease (straps : Straps) (lineHeld pin : Bool) : State :=
  { node := Node.atRelease straps, line := Line.atRelease lineHeld, round := Round.atRelease,
    sampler := Sampler.atRelease, aux := Aux.cleared pin, table := Table.cleared, groups := Groups.cleared,
    handler := Handler.atRelease, log := EventLog.cleared, pending := [] }

/-- The machine right after reset (R77): every strap pin low, line released and AUX low (DESIGN CHOICE, logs 1 and 10). -/
def State.reset : State := State.atRelease Straps.allLow false false

end Sys2Proof.Machine
end

