-- ==== Sys2Proof/Machine/Flags.lean ====
section
/-! DEFINITION. The conditions the blocks read from one another: station roles (R59), the busy and quiet line (R7, R8), the owed cause (R41), and the outputs. -/

namespace Sys2Proof.Machine

/-- A station number of 1..62: a sampling node; 0 and 63 make a listener (R59). -/
def samplingStation (n : BitVec 6) : Bool := n != 0 && n != 63

/-- The node is a sampling node (R59). -/
def State.sampling (s : State) : Bool := samplingStation s.node.straps.station

/-- The node's latched station number. -/
def State.own (s : State) : BitVec 6 := s.node.straps.station

/-- The round period P in reference clocks (R39). -/
def State.period (s : State) : Nat := Config.periodClocks s.node.straps.period

/-- The listen timer at a load: 2P + s·P/64 in a sampling node, stopped in a listener (R63). -/
def State.listenLoad (s : State) : Timer :=
  if s.sampling then some (Config.listenClocks s.node.straps.period s.node.straps.station) else none

/-- The line is busy: FRAME, GAP, RESYNC or MARKED, or an answer window is open (R8). -/
def Line.busy (l : Line) : Bool :=
  match l.cond with
  | .frame => true
  | .gap => true
  | .resync => true
  | .marked => true
  | .opened => l.window
  | .longHold => l.window

/-- The line is quiet for the phase gap: released for 12 cells and not busy (R7). -/
def Line.quiet (l : Line) : Bool :=
  l.cond = .opened && !l.window && decide (Config.phaseGap ≤ l.releasedRun)

/-- The owed cause of a claim that neither originates nor joins: the first row of the table of R41 that applies.
LONG-HOLD is reached here with the window open only, which the first row takes. -/
def Line.owedCause (l : Line) : OwedCause :=
  if l.window then .window
  else
    match l.cond with
    | .marked => .marked
    | .frame => .frameOrGap
    | .gap => .frameOrGap
    | .resync => .resync
    | .opened => .opened
    | .longHold => .window

/-- The owed-cause numbers of R41, as a MARK-DEFERRED detail (R43). -/
def OwedCause.code : OwedCause → BitVec 8
  | .window => 1
  | .marked => 2
  | .frameOrGap => 3
  | .resync => 4
  | .opened => 5

/-- The node samples at an epoch instant: ACTIVE or MUTE, station 1..62 (R46). -/
def State.samples (s : State) : Bool :=
  s.sampling && (s.node.state == .active || s.node.state == .mute)

/-- The slot holds an ANSWER. -/
def Slot.hasAnswer : Slot → Bool
  | .waiting (.answer _) => true
  | .sending (.answer _) => true
  | .waiting (.post _) => false
  | .sending (.post _) => false
  | .empty => false

/-- The slot holds a POST. -/
def Slot.hasPost : Slot → Bool
  | .waiting (.post _) => true
  | .sending (.post _) => true
  | .waiting (.answer _) => false
  | .sending (.answer _) => false
  | .empty => false

/-- The octets of a frame in the slot, as the node sends them (R21). -/
def TxFrame.octets : TxFrame → List Byte
  | .post p => p.octets
  | .answer a => a.octets

/-- The slot is SENDING. -/
def Slot.isSending : Slot → Bool
  | .sending _ => true
  | .waiting _ => false
  | .empty => false

/-- The node drives a frame: its frame is SENDING and the line condition is FRAME. In any other condition that finds the
frame still SENDING the node has stopped driving, and the outcome of the attempt waits: in LONG-HOLD for the release or
the mark, in RESYNC for the outcome of the cell that was released (R10, R15). -/
def State.drivesFrame (s : State) : Bool := s.line.slot.isSending && s.line.cond == .frame

/-- The node drives the field line: it holds a mark or drives a frame (R10, R14, R15). -/
def State.drivesLine (s : State) : Bool := s.line.markHold || s.drivesFrame

/-- The node drives the coil: EXCITE and no other stage (R80, R99). -/
def State.drivesCoil (s : State) : Bool := s.sampler.stage == .excite

/-- The ALARM pin (R152). -/
def State.alarmPin (s : State) : Bool := s.groups.alarm

/-- The EPOCH pin (R49). -/
def State.epochPin (s : State) : Bool := s.round.epochOut

end Sys2Proof.Machine
end

