-- ==== Sys2Proof/Machine/Ops.lean ====
section
/-! DEFINITION. The operations several commands share: offering an event record, the transmit slot, the mark claim, and the entries to LISTEN, MUTE and BARRED with the effects that wait for an answer. -/

namespace Sys2Proof.Machine

/-- Nothing but RESET acts while RESET is held: the node takes no event and keeps no state (R77). -/
def State.unlessReset (s : State) (t : State) : State := if s.node.resetHeld then s else t

/-! ### The event log -/

/-- A record offered to the log: stored at the end, or dropped and counted when 16 are held (R180, R182). -/
def EventLog.offer (l : EventLog) (r : EventRecord) : EventLog :=
  if l.records.length < Config.logCapacity then { l with records := l.records ++ [r] }
  else { l with dropped := satInc l.dropped }

/-- A record of this kind, station and detail offered with the round count as it stands (R179). -/
def State.offer (s : State) (kind : EventKind) (station : BitVec 6) (detail : BitVec 8) : State :=
  s.withLog (s.log.offer { kind := kind, roundCount := s.round.roundCount, station := station, detail := detail })

/-- Several records offered in order (R181). -/
def State.offerAll (s : State) (rs : List (EventKind × BitVec 6 × BitVec 8)) : State :=
  rs.foldl (fun t r => t.offer r.1 r.2.1 r.2.2) s

/-! ### The transmit slot -/

/-- The slot replaced. -/
def State.setSlot (s : State) (slot : Slot) : State := s.withLine { s.line with slot := slot }

/-- A frame of the slot starts: it becomes SENDING and its hold edge makes the line condition FRAME (R14, R5). -/
def State.startFrame (s : State) (f : TxFrame) : State :=
  s.withLine { s.line with slot := .sending f, cond := .frame, lineHeld := true, holdRun := 0, releasedRun := 0,
                           receiving := true }

/-- A frame enters an EMPTY slot as WAITING; in OPEN it starts at once (R13, R14). -/
def State.placeFrame (s : State) (f : TxFrame) : State :=
  if s.line.cond = .opened then s.startFrame f else s.setSlot (.waiting f)

/-! ### Marks -/

/-- The node begins a mark hold from a quiet line. Its hold edge in OPEN makes the condition FRAME (R10, R5, R8, log 12);
while the hold lasts no frame is counted as malformed (R10, Line.errorsAtJudgment). -/
def Line.originate (l : Line) : Line :=
  { l with markHold := true, cond := .frame, lineHeld := true, holdRun := 0, releasedRun := 0, receiving := true }

/-- The controller asks for a mark hold from a quiet line: marks originated increases (R41, R43). -/
def State.originateMark (s : State) : State :=
  (s.withLine s.line.originate).withRound
    { s.round with marksOriginated := satInc s.round.marksOriginated }

/-- A join: the hold is taken in LONG-HOLD and counted, also when a frame of the node waits there for its outcome (R10, R41). -/
def State.joinMark (s : State) : State :=
  (s.withLine { s.line with markHold := true }).withRound
    { s.round with marksOriginated := satInc s.round.marksOriginated }

/-- A claim that finds the line busy or not yet quiet: owed, with its cause (R41). -/
def State.oweMark (s : State) : State := s.withRound { s.round with owed := some s.line.owedCause }

/-- A mark claim (R41). A listener makes none (R59), and none is made while the node holds a mark (R41). A claim made while
a mark is owed changes nothing: flag and cause stay, and a LONG-HOLD does not lead to a join (R41, R43, log 16). -/
def State.claimMark (s : State) : State :=
  if !s.sampling || s.line.markHold || s.round.owed.isSome then s
  else if s.line.quiet then s.originateMark
  else if s.line.cond = .longHold ∧ s.line.window = false then s.joinMark
  else s.oweMark

/-! ### Entries to the node states -/

/-- Entry to LISTEN (R63). -/
def State.enterListen (s : State) : State :=
  (s.withNode { s.node with state := .listen, setupTimer := none, adoption := .none, silentMarks := 0,
                            listenClaim := false }).withRound
    { s.round with epochTimer := some s.period, listenTimer := s.listenLoad }

/-- The exit from SETUP (R62) with the detail of its SETUP-CLOSED record. -/
def State.exitSetup (s : State) (detail : BitVec 8) : State :=
  let closed := s.offer .setupClosed 0 detail
  let noted := if s.own = 63#6 then closed.offer .strapInvalid 0 63 else closed
  noted.enterListen

/-- Entry to ACTIVE, from LISTEN (R66) or MUTE (R70, R71). -/
def State.enterActive (s : State) : State :=
  (s.withNode { s.node with state := .active, adoption := .none, silentMarks := 0, listenClaim := false }).withRound
    { s.round with listenTimer := none }

/-- The sampler abandoned without a hand-over (R94). -/
def Sampler.abandoned (x : Sampler) : Sampler :=
  { x with stage := .idle, work := Work.cleared, finished := none }

/-- What entry to MUTE and to BARRED have in common in the line interface and the controller: the slot emptied without a
POST-LOST record, the mark hold ended, the mark-owed flag cleared (R17, R43). -/
def State.silence (s : State) : State :=
  (s.withLine { s.line with slot := .empty, markHold := false }).withRound { s.round with owed := none }

/-- The node state machine at entry to MUTE or BARRED (R78). -/
def Node.standAside (n : Node) (state : NodeState) : Node :=
  { n with state := state, setupTimer := none, adoption := .none, silentMarks := 0, listenClaim := false,
           dupSuspect := false, collisionNote := false }

/-- The work of R69 at entry to MUTE with a mute count. -/
def State.muteEntry (s : State) (count : BitVec 8) : State :=
  let quiet := s.silence
  ((quiet.withLine { quiet.line with txRun := 0 }).withRound { quiet.round with muteCount := count }).withNode
    (s.node.standAside .mute)

/-- Entry to BARRED on a collision of the POST that carried `tag` (R73). The awaited effect is cleared (R178). -/
def State.enterBarred (s : State) (tag : BitVec 8) : State :=
  let noted := (s.offer .duplicateNumber s.own tag).silence
  (((noted.withSampler noted.sampler.abandoned).withAux (Aux.cleared noted.aux.pin)).withNode
    (noted.node.standAside .barred)).withHandler { noted.handler with awaited := .none }

/-- The effect of RESTART (R76), one operation; it ends with the RESTARTED record in the emptied log (R187). -/
def State.restartEffect (s : State) : State :=
  let cleared : State :=
    { s with
      sampler := Sampler.atRelease
      aux := Aux.cleared s.aux.pin
      line := { s.line with slot := .empty, txRun := 0, rxErrors := 0 }
      round := Round.atRelease
      table := Table.cleared
      groups := Groups.cleared
      log := { records := [{ kind := .restarted, roundCount := 0, station := 0, detail := 0 }], dropped := 0 }
      handler := { s.handler with awaited := .none }
      node := { s.node with dupSuspect := false, collisionNote := false } }
  cleared.enterListen

/-- An awaited effect carried out in the node state of the moment (R163; R62, R68, R75). -/
def State.carryOut (s : State) (effect : Awaited) : State :=
  match effect with
  | .none => s
  | .quiet rounds =>
    match s.node.state with
    | .active => s.muteEntry rounds
    | .mute => s.withRound { s.round with muteCount := rounds }
    | .setup => s
    | .listen => s
    | .barred => s
  | .restart =>
    match s.node.state with
    | .listen => s.restartEffect
    | .active => s.restartEffect
    | .mute => s.restartEffect
    | .setup => s
    | .barred => s
  | .closeSetup =>
    match s.node.state with
    | .setup => s.exitSetup 1
    | .listen => s
    | .active => s
    | .mute => s
    | .barred => s

/-- The report of the end of an answer: the awaited effect is cleared and carried out (R163). -/
def State.answerEnded (s : State) : State :=
  (s.withHandler { s.handler with awaited := .none }).carryOut s.handler.awaited

/-- Entry to MUTE (R69). An ANSWER in the slot is given up by it, and its awaited effect is carried out at that report (R178). -/
def State.enterMute (s : State) (count : BitVec 8) : State :=
  if s.line.slot.hasAnswer then (s.muteEntry count).answerEnded else s.muteEntry count

/-- The handler offers an ANSWER whose request has `effect` to follow it. It enters an EMPTY slot with the effect awaited;
in MUTE and BARRED, and at a slot that is not EMPTY, it is dropped and reported as given up, and the effect follows at
once (R13, R17, R157, R163). -/
def State.offerAnswer (s : State) (a : Answer) (effect : Awaited) : State :=
  match s.node.state, s.line.slot with
  | .setup, .empty => (s.withHandler { s.handler with awaited := effect }).placeFrame (.answer a)
  | .listen, .empty => (s.withHandler { s.handler with awaited := effect }).placeFrame (.answer a)
  | .active, .empty => (s.withHandler { s.handler with awaited := effect }).placeFrame (.answer a)
  | _, _ => s.carryOut effect

end Sys2Proof.Machine
end

