-- ==== Sys2Proof/Machine/StationTable.lean ====
section
/-! DEFINITION. The station table (spec/07_the_station_table.md): the intake list, alignment and the tag vote, the expected sets, and the entry transitions of a snapshot close. -/

namespace Sys2Proof.Machine

/-! ### Entries and the intake list -/

/-- The entry of a station number; a number without an entry (0 or 63) reads as VACANT. -/
def Table.entry (t : Table) (station : BitVec 6) : Entry :=
  if h : 1 ≤ station.toNat ∧ station.toNat ≤ 62 then t.entries[station.toNat - 1]'(by omega) else Entry.vacant

/-- The table with the entry of a station number replaced. -/
def Table.withEntry (t : Table) (station : BitVec 6) (e : Entry) : Table :=
  if h : 1 ≤ station.toNat ∧ station.toNat ≤ 62 then
    { t with entries := t.entries.set (station.toNat - 1) e (by omega) }
  else t

/-- The station number of entry `i`. -/
def stationOf (i : Fin 62) : BitVec 6 := BitVec.ofNat 6 (i.val + 1)

/-- A post arrives in the intake list: in the place of an earlier post of its source, else at the end (R114, R115). -/
def intakePost (p : Post) : List Post → List Post
  | [] => [p]
  | q :: rest => if q.source = p.source then p :: rest else q :: intakePost p rest

/-- A POST delivered to the station table: taken in POSTING, discarded in any other phase (R114). In LISTEN the first one
taken adopts its tag plus 1 (R64). -/
def State.deliverPost (s : State) (p : Post) : State :=
  match s.round.phase with
  | .posting =>
    let taken := s.withTable { s.table with intake := intakePost p s.table.intake }
    if s.node.state = .listen ∧ s.node.adoption ≠ .posted then
      (taken.withNode { s.node with adoption := .posted }).withRound { s.round with tag := p.tag + 1 }
    else taken
  | .quietWait => s
  | .mark => s
  | .request => s

/-! ### Alignment and the tag vote -/

/-- A post is aligned with an epoch tag when it carries that tag minus 1 (R118). -/
def Post.aligned (p : Post) (tag : BitVec 8) : Bool := p.tag == tag - 1

/-- The aligned posts of a list (R118). -/
def alignedPosts (tag : BitVec 8) (posts : List Post) : List Post := posts.filter (·.aligned tag)

/-- The misaligned posts of a list (R118). -/
def misalignedPosts (tag : BitVec 8) (posts : List Post) : List Post := posts.filter (fun p => !p.aligned tag)

/-- How many of these tags are `t`. -/
def votes (tags : List (BitVec 8)) (t : BitVec 8) : Nat := tags.count t

/-- Of two tags the one with more votes, the lower one on a tie (R121). -/
def betterTag (tags : List (BitVec 8)) (best t : BitVec 8) : BitVec 8 :=
  if votes tags best < votes tags t ∨ (votes tags best = votes tags t ∧ t < best) then t else best

/-- The tag carried most often, the lowest on a tie; `none` of an empty list (R121). -/
def mostFrequent (tags : List (BitVec 8)) : Option (BitVec 8) :=
  match tags with
  | [] => none
  | t :: rest => some (rest.foldl (betterTag tags) t)

/-- The tag the vote moves to, `none` when it leaves the tag as it is (R121). -/
def tagVote (tag : BitVec 8) (posts : List Post) : Option (BitVec 8) :=
  let wrong := (misalignedPosts tag posts).map (·.tag)
  if (alignedPosts tag posts).length < wrong.length then
    match mostFrequent wrong with
    | some t => if 2 ≤ votes wrong t then some (t + 1) else none
    | none => none
  else none

/-! ### Expected sets and entry transitions -/

/-- The entry is in PRESENT or LAPSING and holds group `g` (R123). -/
def Entry.expectedIn (e : Entry) (g : Fin 8) : Bool :=
  (e.state == .present || e.state == .lapsing) && e.group.toFin == g

/-- The expected set of a group, in ascending order of station (R123). -/
def expectedSet (entries : Vector Entry 62) (g : Fin 8) : List (BitVec 6) :=
  ((List.finRange 62).filter (fun i => entries[i].expectedIn g)).map stationOf

/-- The state of an entry that takes a post (R124). -/
def EntryState.heard : EntryState → EntryState
  | .vacant => .seen
  | .seen => .present
  | .present => .present
  | .lapsing => .present
  | .lapsed => .present

/-- An entry that takes an aligned post at a close with this round count (R124). -/
def Entry.take (e : Entry) (p : Post) (roundCount : BitVec 16) : Entry :=
  { state := e.state.heard, group := p.group, lastTag := p.tag, lastQuality := p.reading.quality,
    lastValue := p.reading.value, lastAux := p.aux, alarm := p.alarm, missRun := 0,
    heard := satInc e.heard, misses := e.misses, lastHeard := roundCount }

/-- An entry charged for a close without an aligned post, under a lapse limit (R125). -/
def Entry.miss (e : Entry) (lapse : Nat) : Entry :=
  match e.state with
  | .vacant => e
  | .seen => Entry.vacant
  | .present =>
    { e with state := if 2 ≤ lapse then .lapsing else .lapsed, missRun := 1, misses := satInc e.misses }
  | .lapsing =>
    if e.missRun + 1 < lapse then { e with missRun := e.missRun + 1, misses := satInc e.misses }
    else { e with state := .lapsed, missRun := lapse, misses := satInc e.misses }
  | .lapsed => { e with missRun := lapse, misses := satInc e.misses }

/-- The transition of one entry at a close: `post` is the aligned post of its station, if there is one (R124, R125). -/
def Entry.close (e : Entry) (post : Option Post) (roundCount : BitVec 16) (lapse : Nat) : Entry :=
  match post with
  | some p => e.take p roundCount
  | none => e.miss lapse

/-- The record an entry's transition offers, with its detail (R124, R125). -/
def Entry.closeRecord (e : Entry) (post : Option Post) (lapse : Nat) : Option (EventKind × BitVec 8) :=
  match post, e.state with
  | some p, .seen => some (.stationNew, p.group.setWidth 8)
  | some p, .lapsed => some (.stationReturned, p.group.setWidth 8)
  | some _, .vacant => none
  | some _, .present => none
  | some _, .lapsing => none
  | none, .present => if 2 ≤ lapse then none else some (.stationLapsed, e.group.setWidth 8)
  | none, .lapsing => if e.missRun + 1 < lapse then none else some (.stationLapsed, e.group.setWidth 8)
  | none, .vacant => none
  | none, .seen => none
  | none, .lapsed => none

/-- The aligned post of a station in a list of aligned posts. -/
def postOf (posts : List Post) (station : BitVec 6) : Option Post := posts.find? (·.source == station)

/-- Stage 4: every entry takes its transition (R120, R124, R125), the node's own entry like any other (R130). An own entry
whose station is the source of an aligned post of a duplicate takes that post: so say R20, R116 and R124, where R130 counts
an own post that lost to a duplicate's frame among the misses. The model's choice, log 22. -/
def closeEntries (entries : Vector Entry 62) (posts : List Post) (roundCount : BitVec 16) (lapse : Nat) :
    Vector Entry 62 :=
  Vector.ofFn fun i => entries[i].close (postOf posts (stationOf i)) roundCount lapse

/-- The station records of stage 4, in ascending order of station (R129). -/
def stationRecords (entries : Vector Entry 62) (posts : List Post) (lapse : Nat) :
    List (EventKind × BitVec 6 × BitVec 8) :=
  (List.finRange 62).filterMap fun i =>
    (entries[i].closeRecord (postOf posts (stationOf i)) lapse).map fun r => (r.1, stationOf i, r.2)

/-- Stage 1, the tag vote: on a slip the tag moves and TAG-SLIP is offered (R121). -/
def State.voteTag (s : State) : State :=
  match tagVote s.round.tag s.table.intake with
  | some tag => (s.withRound { s.round with tag := tag }).offer .tagSlip 0 tag
  | none => s

/-- The posts aligned with the tag as it stands (R118); after stage 1 this is the final judgment. -/
def State.alignedNow (s : State) : List Post := alignedPosts s.round.tag s.table.intake

/-- The lapse limit of the store (R126). -/
def State.lapseLimit (s : State) : Nat := s.handler.store.plan.lapse.toNat

/-- Stages 2 and 4 after the vote: the misaligned count, the entry transitions and their records (R119, R120). -/
def State.closeTable (s : State) : State :=
  (s.withTable
    { s.table with
      misaligned := satAdd s.table.misaligned (misalignedPosts s.round.tag s.table.intake).length
      entries := closeEntries s.table.entries s.alignedNow s.round.roundCount s.lapseLimit }).offerAll
    (stationRecords s.table.entries s.alignedNow s.lapseLimit)

end Sys2Proof.Machine
end

