-- ==== Sys2Proof/Machine/Aggregator.lean ====
section
/-! DEFINITION. The group aggregator (spec/08_group_aggregates_and_the_alarm_line.md): the records of a close, the limit states, the incomplete runs and ALARM. -/

namespace Sys2Proof.Machine

/-- The contributors of a group among the posts handed over: source and value of every GOOD or CLIPPED post that carries
the group (R139). -/
def contributors (posts : List Post) (g : Fin 8) : List (BitVec 6 × Int) :=
  posts.filterMap fun p =>
    if p.group.toFin = g then p.reading.usable.map fun v => (p.source, v.toInt) else none

/-- The sum of the contributors' values, exact (R140). -/
def contributorSum (cs : List (BitVec 6 × Int)) : Int := (cs.map (·.2)).sum

/-- Of two contributors the one with the lesser value, the lower station on a tie (R141). -/
def lesser (a b : BitVec 6 × Int) : BitVec 6 × Int :=
  if b.2 < a.2 ∨ (b.2 = a.2 ∧ b.1 < a.1) then b else a

/-- Of two contributors the one with the greater value, the lower station on a tie (R141). -/
def greater (a b : BitVec 6 × Int) : BitVec 6 × Int :=
  if a.2 < b.2 ∨ (b.2 = a.2 ∧ b.1 < a.1) then b else a

/-- Minimum, maximum and mean of the contributors; absent without any. The mean is rounded toward zero (R141, R142). -/
def extremesOf (cs : List (BitVec 6 × Int)) : Option Extremes :=
  match cs with
  | [] => none
  | c :: rest =>
    let least := rest.foldl lesser c
    let most := rest.foldl greater c
    some { minStation := least.1, minimum := least.2, maxStation := most.1, maximum := most.2,
           mean := (contributorSum cs).tdiv cs.length }

/-- The group is complete: at least one station is expected and every expected one contributed (R143). -/
def groupComplete (expected : List (BitVec 6)) (cs : List (BitVec 6 × Int)) : Bool :=
  !expected.isEmpty && expected.all fun n => cs.any fun c => c.1 == n

/-- The record of a group at a close (R138 to R144). -/
def groupRecord (posts : List Post) (expected : List (BitVec 6)) (roundCount : BitVec 16) (g : Fin 8) : GroupRecord :=
  let cs := contributors posts g
  { expected := expected.length, contributors := cs.length, complete := groupComplete expected cs,
    sum := contributorSum cs, extremes := extremesOf cs, lastClose := roundCount }

/-- The basis value of a record; `none` only when a basis other than SUM has no contributor (R147). -/
def basisValue (basis : Basis) (r : GroupRecord) : Option Int :=
  match basis with
  | .sum => some r.sum
  | .mean => r.extremes.map (·.mean)
  | .min => r.extremes.map (·.minimum)
  | .max => r.extremes.map (·.maximum)

/-- The move of a limit state at an evaluation with basis value `b` (R148). -/
def LimitState.evaluate (st : LimitState) (l : LimitRecord) (b : Int) : LimitState :=
  let high := l.high.toInt
  let low := l.low.toInt
  let hysteresis : Int := l.hysteresis.toNat
  match st with
  | .normal => if high < b then .high else if b < low then .low else .normal
  | .high => if b < low then .low else if b ≤ high - hysteresis then .normal else .high
  | .low => if high < b then .high else if low + hysteresis ≤ b then .normal else .low

/-- The limit state after stage 2: evaluated in a watched group that is complete, left as it stands otherwise (R146, R147). -/
def nextLimit (l : LimitRecord) (r : GroupRecord) (st : LimitState) : LimitState :=
  if l.watched && r.complete then
    match basisValue l.basis r with
    | some b => st.evaluate l b
    | none => st
  else st

/-- The incomplete run after stage 2 (R150). -/
def nextRun (r : GroupRecord) (run : BitVec 8) : BitVec 8 := if r.complete then 0 else satInc run

/-- The limit-state codes of R35. -/
def LimitState.code : LimitState → BitVec 2
  | .normal => 0
  | .high => 1
  | .low => 2

/-- A detail of the form 16 × group + n (R149, R150). -/
def groupDetail (g : Fin 8) (n : Nat) : BitVec 8 := BitVec.ofNat 8 (16 * g.val + n)

/-- The record of stage 2 for one group: GROUP-LIMIT on a change of limit state, GROUP-INCOMPLETE when the increase brings
the run of a watched group to its setting (R149, R150). -/
def groupEvent (l : LimitRecord) (r : GroupRecord) (before : GroupCell) (g : Fin 8) :
    Option (EventKind × BitVec 6 × BitVec 8) :=
  if r.complete then
    if nextLimit l r before.limit ≠ before.limit then
      some (.groupLimit, 0, groupDetail g (nextLimit l r before.limit).code.toNat)
    else none
  else if l.watched = true ∧ l.rounds ≠ 0#4 ∧ (nextRun r before.run).toNat = l.rounds.toNat then
    some (.groupIncomplete, 0, groupDetail g l.rounds.toNat)
  else none

/-- What the aggregator holds for a group after a close that computed `r` (R138). -/
def GroupCell.close (c : GroupCell) (l : LimitRecord) (r : GroupRecord) : GroupCell :=
  { record := r, limit := nextLimit l r c.limit, run := nextRun r c.run }

/-- The group's part in the ALARM condition (R152). -/
def GroupCell.alarms (c : GroupCell) (l : LimitRecord) : Bool :=
  l.watched && (c.limit != .normal || (l.rounds != 0#4 && decide (l.rounds.toNat ≤ c.run.toNat)))

/-- The ALARM condition over the eight groups (R152). -/
def alarmCondition (store : Store) (cells : Vector GroupCell 8) : Bool :=
  (List.finRange 8).any fun g => cells[g].alarms (store.limit g)

/-- The records of all groups at a close (R138 stage 1). -/
def groupRecords (posts : List Post) (entries : Vector Entry 62) (roundCount : BitVec 16) (g : Fin 8) : GroupRecord :=
  groupRecord posts (expectedSet entries g) roundCount g

/-- The aggregator's part of a close (R138): `posts` are the aligned posts handed over and `before` the entries from
which the expected sets are taken (R123, R128). -/
def State.closeGroups (s : State) (posts : List Post) (before : Vector Entry 62) : State :=
  let record := groupRecords posts before s.round.roundCount
  let cells := Vector.ofFn fun g => s.groups.cells[g].close (s.handler.store.limit g) (record g)
  (s.offerAll ((List.finRange 8).filterMap fun g =>
      groupEvent (s.handler.store.limit g) (record g) s.groups.cells[g] g)).withGroups
    { cells := cells, alarm := alarmCondition s.handler.store cells }

/-- The snapshot close: the table's part, then the aggregator's part on what it hands over (R120, R128, R138). -/
def State.snapshotClose (s : State) : State :=
  let voted := s.voteTag
  voted.closeTable.closeGroups voted.alignedNow s.table.entries

/-! ### The posting close (R52) -/

/-- The three causes of a posting close (R51). -/
inductive CloseCause where
  | quiet
  | firstOctet
  | mark
deriving DecidableEq, Repr

/-- The detail of POST-LOST (R52); at a quiet, where the manual finds no POST, a free value (log 9). -/
def CloseCause.detail (c : CloseCause) (roundCount : BitVec 16) : BitVec 8 :=
  match c with
  | .firstOctet => 1
  | .mark => 2
  | .quiet => Config.postLostDetailAtQuiet roundCount

/-- Stage 1: a POST still in the slot is discarded, recorded and counted (R52, R17). -/
def State.dropUnsentPost (s : State) (cause : CloseCause) : State :=
  if s.line.slot.hasPost then
    let lost := (s.setSlot .empty).offer .postLost s.own (cause.detail s.round.roundCount)
    lost.withRound { lost.round with postsLost := satInc lost.round.postsLost }
  else s

/-- At a posting close in ACTIVE, after the slot: the collision note sets the duplicate-suspect flag and is cleared (R72). -/
def State.judgeDuplicate (s : State) : State :=
  if s.node.state = .active then
    s.withNode { s.node with dupSuspect := s.node.dupSuspect || s.node.collisionNote, collisionNote := false }
  else s

/-- The node states in which a snapshot close is made (R52, R60). -/
def NodeState.closes : NodeState → Bool
  | .active => true
  | .mute => true
  | .barred => true
  | .setup => false
  | .listen => false

/-- A posting close (R52); it is made only while the phase is POSTING (R51). -/
def State.postingClose (s : State) (cause : CloseCause) : State :=
  if s.round.phase = .posting then
    let judged := (s.dropUnsentPost cause).judgeDuplicate
    let closed := judged.withRound { judged.round with phase := .request }
    if s.node.state.closes then closed.snapshotClose else closed
  else s

end Sys2Proof.Machine
end

