-- ==== Sys2Proof/Machine/Sampling.lean ====
section
/-! DEFINITION. The sampler (spec/05_the_sampler.md) and the aux channel (spec/06_the_auxiliary_duty_channel.md): stages, completion arithmetic, hand-over and start. -/

namespace Sys2Proof.Machine

/-! ### Lengths of the sampler's stages -/

/-- Length of EXCITE in clocks: the sweep time, or the pulse of 8,000,000/(band-low + band-high) clocks (R81, R82). -/
def exciteClocks (p : Plan) : Nat :=
  if p.pluck then 8000000 / (p.bandLow.toNat + p.bandHigh.toNat) else p.sweep.toNat * Config.clocksPerMs

/-- Length of SETTLE in clocks (R83). -/
def settleClocks (p : Plan) : Nat := p.settle.toNat * Config.clocksPerMs

/-- The count window W in clocks, 10,000,000·N/band-low rounded down (R86). -/
def countWindow (p : Plan) : Nat := 10000000 * p.count / p.bandLow.toNat

/-- The drive frequency of a sweep at `t` clocks from the start, times the sweep length in clocks, in Hz (R81):
band-low·T + (band-high − band-low)·t. -/
def sweepFrequencyTimesLength (p : Plan) (t : Nat) : Nat :=
  p.bandLow.toNat * exciteClocks p + (p.bandHigh.toNat - p.bandLow.toNat) * t

/-! ### Completion (R87 to R91) -/

/-- The raw reading (8,000,000·N)²/(10·C²), rounded down (R87). -/
def rawReading (n c : Nat) : Nat := (8000000 * n) ^ 2 / (10 * c ^ 2)

/-- |C1 − C2| (R88). -/
def halfDifference (c1 c2 : Nat) : Nat := (c1 - c2) + (c2 - c1)

/-- The reading fails the stability check (R88). -/
def unstable (p : Plan) (c1 c2 : Nat) : Bool :=
  p.tolerance.toNat * (c1 + c2) < halfDifference c1 c2 * 1000000

/-- The reading fails the band check (R89). -/
def outOfBand (p : Plan) (c : Nat) : Bool :=
  8000000 * p.count < p.bandLow.toNat * c || p.bandHigh.toNat * c < 8000000 * p.count

/-- The value before the clamp, (raw − zero)·gain/4096 rounded toward zero (R90). -/
def unclampedValue (cal : Cal) (raw : Nat) : Int :=
  (((raw : Int) - cal.zero.toNat) * cal.gain.toInt).tdiv 4096

/-- The clamp to −8,388,607..8,388,607 (R90). -/
def clampValue (v : Int) : Int := max (-8388607) (min 8388607 v)

/-- The reading of a completed count: the first test that applies decides its quality (R91). -/
def completedReading (p : Plan) (cal : Cal) (c1 c2 : Nat) : Reading :=
  let exact := unclampedValue cal (rawReading p.count (c1 + c2))
  let value := BitVec.ofInt 24 (clampValue exact)
  if unstable p c1 c2 then .unstable value
  else if outOfBand p (c1 + c2) then .outOfBand value
  else if clampValue exact ≠ exact then .clipped value
  else .good value

/-! ### Sensor events -/

/-- The transducer is healthy by this quality: GOOD or CLIPPED (R97). -/
def Quality.healthy : Quality → Bool
  | .good => true
  | .clipped => true
  | .unstable => false
  | .outOfBand => false
  | .noSignal => false
  | .overrun => false
  | .notSampled => false

/-- The record a change of health offers (R97). -/
def State.offerSensor (s : State) (old new : Quality) : State :=
  if old.healthy && !new.healthy then s.offer .sensorFault s.own (new.code.setWidth 8)
  else if !old.healthy && new.healthy then s.offer .sensorRecovered s.own (new.code.setWidth 8)
  else s

/-- An operation completes: the finished reading is stored, the stage returns to IDLE, the last own quality is updated and
a change of health is reported (R91, R96, R97). -/
def State.completeReading (s : State) (r : Reading) : State :=
  (s.withSampler { s.sampler with stage := .idle, work := Work.cleared, finished := some r,
                                  lastOwn := r.quality }).offerSensor s.sampler.lastOwn r.quality

/-! ### Stages -/

/-- SETTLE has ended: COUNT with its first-edge timer (R83, R84). -/
def Sampler.enterCount (x : Sampler) : Sampler :=
  { x with stage := .count,
           work := { x.work with timer := some Config.firstEdgeClocks, started := false, edges := 0, c1 := 0, c2 := 0 } }

/-- EXCITE has ended: SETTLE, or COUNT at once with a settle time of 0 (R81, R82, R83). -/
def Sampler.endExcite (x : Sampler) : Sampler :=
  if settleClocks x.work.plan = 0 then x.enterCount
  else { x with stage := .settle, work := { x.work with timer := some (settleClocks x.work.plan) } }

/-- The first edge becomes edge 0 and opens the count window (R84, R86). -/
def Sampler.edgeZero (x : Sampler) : Sampler :=
  { x with work := { x.work with timer := some (countWindow x.work.plan), started := true } }

/-- A counted edge `clocks` after the one before it: C1 up to edge N/2, C2 from there (R85). -/
def Work.countEdge (w : Work) (clocks : Nat) : Work :=
  if w.edges + 1 ≤ w.plan.count / 2 then { w with edges := w.edges + 1, c1 := w.c1 + clocks }
  else { w with edges := w.edges + 1, c2 := w.c2 + clocks }

/-- An edge of the coil in COUNT, `clocks` after the entry to COUNT or the edge before it. An edge later than the
first-edge timer or the count window comes after the expiry, which has completed the operation as NO-SIGNAL (R84, R86,
log 4); an edge in the clock of the edge before it is not a separate edge (R84); edge N completes the count (R85). -/
def State.takeEdge (s : State) (clocks : Nat) : State :=
  let w := s.sampler.work
  if !w.started then
    if Config.firstEdgeClocks < clocks then s.completeReading .noSignal
    else s.withSampler s.sampler.edgeZero
  else if clocks = 0 then s
  else
    let counted := w.countEdge clocks
    if countWindow w.plan < counted.c1 + counted.c2 then s.completeReading .noSignal
    else if counted.edges = w.plan.count then
      s.completeReading (completedReading w.plan w.cal counted.c1 counted.c2)
    else s.withSampler { s.sampler with work := counted }

/-! ### Hand-over and start -/

/-- A new operation: the plan and calibration are taken, EXCITE begins (R80). -/
def Sampler.start (x : Sampler) (plan : Plan) (cal : Cal) : Sampler :=
  { x with stage := .excite, finished := none,
           work := { Work.cleared with timer := some (exciteClocks plan), plan := plan, cal := cal } }

/-- The stage code of a SAMPLE-OVERRUN detail; none in IDLE, where nothing is overrun (R93). -/
def SamplerStage.code : SamplerStage → Option (BitVec 8)
  | .idle => none
  | .excite => some 1
  | .settle => some 2
  | .count => some 3

/-- What the sampler hands over at stage 5: OVERRUN of an operation in flight, else the finished reading if there is one (R92). -/
def Sampler.handOver (x : Sampler) : Option Reading :=
  match x.stage.code with
  | some _ => some .overrun
  | none => x.finished

/-- The overrun of an operation in flight is recorded and counted (R93). -/
def State.recordOverrun (s : State) : State :=
  match s.sampler.stage.code with
  | some detail =>
    let noted := s.offer .sampleOverrun s.own detail
    noted.withSampler { noted.sampler with overruns := satInc noted.sampler.overruns }
  | none => s

/-- The sampler is given its start, after its hand-over (R80, R93). -/
def State.startSampler (s : State) : State :=
  let recorded := s.recordOverrun
  recorded.withSampler (recorded.sampler.start s.handler.store.plan s.handler.store.cal)

/-! ### The aux channel -/

/-- The aux status codes of R24. -/
def AuxStatus.code : AuxStatus → BitVec 2
  | .ok => 0
  | .stuckHigh => 1
  | .stuckLow => 2
  | .erratic => 3

/-- The aux field of a result: status in bits 15 and 14, duty below (R24). -/
def AuxResult.field (r : AuxResult) : BitVec 16 := r.status.code ++ r.duty

/-- The duty H·16384/T, rounded down and limited to 16383 (R107). -/
def auxDuty (high total : Nat) : BitVec 14 := BitVec.ofNat 14 (min 16383 (high * 16384 / total))

/-- OK or ERRATIC by the spread of the periods (R107). -/
def auxStatus (longest shortest : Nat) : AuxStatus :=
  if shortest < 8 * (longest - shortest) then .erratic else .ok

/-- The result of eight timed periods (R107). -/
def timedResult (high total longest shortest : Nat) : AuxResult :=
  { status := auxStatus longest shortest, duty := auxDuty high total }

/-- The result of an edge timer expiry at this level (R106). -/
def stuckResult (level : Bool) : AuxResult :=
  if level then { status := .stuckHigh, duty := 16383 } else { status := .stuckLow, duty := 0 }

/-- A measurement completes with a result; the stage returns to IDLE and the edge timer stops (R106, R107). The
accumulators keep their values until the next start clears them (log 14). -/
def Aux.complete (a : Aux) (r : AuxResult) : Aux := { a with stage := .idle, edgeTimer := none, result := some r }

/-- A new measurement (R103). -/
def Aux.start (a : Aux) : Aux :=
  { Aux.cleared a.pin with stage := .measuring, edgeTimer := some Config.auxEdgeClocks }

/-- What the aux channel hands over: a finished result in IDLE, nothing while MEASURING (R108). -/
def Aux.handOver (a : Aux) : Option AuxResult :=
  match a.stage with
  | .idle => a.result
  | .measuring => none

/-- A rising edge after edge 0, `low` clocks after the falling edge: one more period (R105). -/
def Aux.addPeriod (a : Aux) (low : Nat) : Aux :=
  let period := a.openHigh + low
  { a with edgeCount := a.edgeCount + 1, total := a.total + period, openHigh := 0,
           longest := if a.edgeCount = 0 then period else max a.longest period,
           shortest := if a.edgeCount = 0 then period else min a.shortest period }

/-- An edge while MEASURING, within the edge timer: it reloads the timer and accumulates; the eighth rising edge after
edge 0 completes the measurement (R104, R105). -/
def Aux.accumulate (a : Aux) (rising : Bool) (clocks : Nat) : Aux :=
  let b := { a with pin := rising, edgeTimer := some Config.auxEdgeClocks }
  if rising then
    if !a.started then { b with started := true }
    else
      let counted := b.addPeriod clocks
      if counted.edgeCount = 8 then
        counted.complete (timedResult counted.high counted.total counted.longest counted.shortest)
      else counted
  else if a.started then { b with high := b.high + clocks, openHigh := clocks }
  else b

/-- An edge of the AUX input to level `rising`, `clocks` after the edge before it. A change to the level already sampled
is no edge, nor is one in the clock of the edge before it; outside MEASURING only the level changes; an edge later than the
edge timer comes after the expiry (R104, R106, log 4). -/
def Aux.takeEdge (a : Aux) (rising : Bool) (clocks : Nat) : Aux :=
  if rising = a.pin then a
  else
    match a.stage with
    | .idle => { a with pin := rising }
    | .measuring =>
      if clocks = 0 then a
      else if Config.auxEdgeClocks < clocks then { a.complete (stuckResult a.pin) with pin := rising }
      else a.accumulate rising clocks

/-- The aux channel is given its start, if it is enabled (R103). -/
def State.startAux (s : State) : State :=
  if s.node.straps.auxEnabled then s.withAux s.aux.start else s

/-- What an enabled aux channel hands over (R46, R108). -/
def State.auxHandOver (s : State) : Option AuxResult :=
  if s.node.straps.auxEnabled then s.aux.handOver else none

/-- The result left in a channel that receives no start is discarded (R46). -/
def Aux.discardResult (a : Aux) : Aux := { a with result := none }

end Sys2Proof.Machine
end

