-- ==== Sys2Proof/Machine/Epoch.lean ====
section
/-! DEFINITION. The epoch instant (R45): its six stages, taken in every node state but SETUP. -/

namespace Sys2Proof.Machine

/-- Stage 1: the posting phase, if it is running, closes with cause mark; after it the slot is empty, as the recognized
mark has left it (R45, R17). -/
def State.epochClose (s : State) : State := (s.postingClose .mark).setSlot .empty

/-- Stage 2: entry to ACTIVE from LISTEN (R66), and the count-down of MUTE (R70). -/
def State.epochNodeState (s : State) : State :=
  match s.node.state with
  | .listen =>
    match s.node.adoption with
    | .posted => s.enterActive
    | .silent => s.enterActive
    | .none => if s.node.listenClaim then (s.withRound { s.round with tag := 255 }).enterActive else s
  | .mute =>
    let counted := s.withRound { s.round with muteCount := s.round.muteCount - 1 }
    if s.round.muteCount.toNat ≤ 1 then (counted.withRound { counted.round with muteCount := 0 }).enterActive else counted
  | .setup => s
  | .active => s
  | .barred => s

/-- The node state machine's part of stage 3 in LISTEN: a silent mark is counted, and the second sets the adoption state
to SILENT (R65). -/
def Node.countMark (n : Node) : Node :=
  match n.adoption with
  | .none =>
    if 2 ≤ n.silentMarks + 1 then { n with silentMarks := 2, adoption := .silent }
    else { n with silentMarks := n.silentMarks + 1 }
  | .silent => n
  | .posted => n

/-- The epoch tag after stage 3: advanced by 1, but in LISTEN set to 0 by the second silent mark and otherwise left (R45, R65). -/
def State.epochTag (s : State) : BitVec 8 :=
  match s.node.state with
  | .listen =>
    match s.node.adoption with
    | .none => if 2 ≤ s.node.silentMarks + 1 then 0 else s.round.tag
    | .silent => s.round.tag
    | .posted => s.round.tag
  | .setup => s.round.tag
  | .active => s.round.tag + 1
  | .mute => s.round.tag + 1
  | .barred => s.round.tag + 1

/-- Stage 3: the timers are loaded, the owed mark is cleared, round count and tag advance, MARK begins and EPOCH is
asserted (R45, R49; the listen timer by R63). -/
def State.epochRound (s : State) : State :=
  let counted := if s.node.state = .listen then s.withNode s.node.countMark else s
  counted.withRound
    { s.round with
      epochTimer := some s.period
      listenTimer := if s.node.state = .listen then s.listenLoad else s.round.listenTimer
      owed := none
      roundCount := s.round.roundCount + 1
      tag := s.epochTag
      phase := .mark
      epochOut := true }

/-- Stage 4: the intake list is emptied (R117). -/
def State.epochIntake (s : State) : State := s.withTable { s.table with intake := [] }

/-- Stage 5: in a node that samples both blocks start anew; in any other, what they hold is discarded (R46). -/
def State.epochMeasure (s : State) : State :=
  if s.samples then s.startSampler.startAux
  else (s.withSampler { s.sampler with finished := none }).withAux s.aux.discardResult

/-- The pending post of stage 6 (R47), from what was handed over in stage 5. -/
def State.pendingPost (s : State) (reading : Option Reading) (aux : Option AuxResult) : Post :=
  { source := s.own, tag := s.round.tag - 1, group := s.node.straps.group,
    reading := reading.getD .notSampled, aux := aux.map AuxResult.field, alarm := s.groups.alarm }

/-- Stage 6: a sampling node in ACTIVE places its pending post (R47). -/
def State.epochPost (s : State) (reading : Option Reading) (aux : Option AuxResult) : State :=
  if s.node.state = .active ∧ s.sampling = true then s.placeFrame (.post (s.pendingPost reading aux)) else s

/-- The first four stages of an epoch instant. -/
def State.epochStages (s : State) : State := s.epochClose.epochNodeState.epochRound.epochIntake

/-- An epoch instant (R45). In SETUP the controller takes none. -/
def State.epochInstant (s : State) : State :=
  if s.node.state = .setup then s
  else
    let ready := s.epochStages
    ready.epochMeasure.epochPost ready.sampler.handOver ready.auxHandOver

end Sys2Proof.Machine
end

