-- ==== Sys2Proof/Machine/LineEvents.lean ====
section
/-! DEFINITION. The events of the line interface (spec/01_the_field_line.md): run thresholds, holds and marks, and frames as the receiver sees them. -/

namespace Sys2Proof.Machine

/-! ### Frames on the line -/

/-- A frame reaches its end: GAP begins, and the end closes an open answer window (R6, R9). -/
def Line.frameEnd (l : Line) : Line :=
  { l with cond := .gap, lineHeld := false, holdRun := 0, releasedRun := 0, receiving := false, window := false }

/-- The receive error counter after a frame is judged malformed: one more, but while the node holds a mark, when a line that
reads released records no error (R31, R10, log 23). -/
def Line.errorsAtJudgment (l : Line) : BitVec 16 := if l.markHold then l.rxErrors else satInc l.rxErrors

/-- A frame is judged malformed: it is discarded and counted, and its end closes an open answer window; the line condition
becomes `cond` (R30, R31). -/
def Line.malformed (l : Line) (cond : LineCondition) : Line :=
  { l with cond := cond, holdRun := 0, releasedRun := 0, receiving := false, window := false,
           rxErrors := l.errorsAtJudgment }

/-- The slot gives up a WAITING or SENDING ANSWER and reports it (R16, R163). -/
def State.giveUpAnswer (s : State) : State :=
  if s.line.slot.hasAnswer then (s.setSlot .empty).answerEnded else s

/-- A hold edge in OPEN or GAP begins a frame (R5, R6). -/
def Line.frameBegin (l : Line) : Line :=
  { l with cond := .frame, lineHeld := true, holdRun := 0, releasedRun := 0, receiving := true }

/-- FRAME_START: a hold edge of another station. In OPEN or GAP it starts a frame; in GAP it gives up an ANSWER that is
still WAITING for the coming opportunity (R5, R14). -/
def execFrameStart (s : State) : Host.Outcome State Fault Refusal :=
  .next <| s.unlessReset <|
    match s.line.cond with
    | .opened => s.withLine s.line.frameBegin
    | .gap => (s.withLine s.line.frameBegin).giveUpAnswer
    | .resync => s
    | .frame => s
    | .longHold => s
    | .marked => s

/-- FIRST_OCTET_COMPLETE: the kind is reported; ANSWER and REQUEST close a running posting phase (R22, R51). -/
def execFirstOctetComplete (octet : Byte) (s : State) : Host.Outcome State Fault Refusal :=
  .next <| s.unlessReset <|
    if s.line.cond = .frame then
      match firstOctetKind octet with
      | .answer => s.postingClose .firstOctet
      | .request => s.postingClose .firstOctet
      | .post => s
      | .invalid => s
    else s

/-- The line after a frame is judged malformed on the octets received: GAP after a check mismatch, RESYNC after a field
condition, unchanged when the octets show none (R29, R30). -/
def Line.judgeOctets (l : Line) (octets : List Byte) : Line :=
  match judge octets with
  | .malformed .checkMismatch => { l.malformed .gap with lineHeld := false }
  | .malformed .kindCode => l.malformed .resync
  | .malformed .postSource => l.malformed .resync
  | .malformed .requestTarget => l.malformed .resync
  | .malformed .postQuality => l.malformed .resync
  | .malformed .argumentLength => l.malformed .resync
  | .malformed .payloadLength => l.malformed .resync
  | .incomplete => l
  | .valid _ => l

/-- The line after a shape error: a release at Q1 is judged at once; a hold at Q4 when the long hold that grew from it is
released before 2 cells (R6, R29). -/
def Line.judgeShape (l : Line) (cell : CellLevels) : Line :=
  match readCell cell, l.cond with
  | .releasedAtQ1, .frame => { l.malformed .resync with lineHeld := false }
  | .heldAtQ4, .longHold => { l.malformed .resync with lineHeld := false }
  | _, _ => l

/-- MALFORMED_FRAME: the frame being received meets a condition of R29 (R30). -/
def execMalformedFrame (report : MalformedReport) (s : State) : Host.Outcome State Fault Refusal :=
  .next <| s.unlessReset <|
    if s.line.receiving then
      match report with
      | .shape cell => s.withLine (s.line.judgeShape cell)
      | .octets octets => if s.line.cond = .frame then s.withLine (s.line.judgeOctets octets) else s
    else s

/-- POST_RECEIVED: a valid POST ends and is delivered to the station table (R32, R114). -/
def execPostReceived (octets : List Byte) (s : State) : Host.Outcome State Fault Refusal :=
  .next <| s.unlessReset <|
    if s.line.cond = .frame then
      match judge octets with
      | .valid (.post p) => (s.withLine s.line.frameEnd).deliverPost p
      | .valid (.answer _) => s
      | .valid (.request _) => s
      | .incomplete => s
      | .malformed _ => s
    else s

/-- ANSWER_RECEIVED: a valid ANSWER of another station ends; it is not delivered (R28, R32). -/
def execAnswerReceived (octets : List Byte) (s : State) : Host.Outcome State Fault Refusal :=
  .next <| s.unlessReset <|
    if s.line.cond = .frame then
      match judge octets with
      | .valid (.answer _) => s.withLine s.line.frameEnd
      | .valid (.post _) => s
      | .valid (.request _) => s
      | .incomplete => s
      | .malformed _ => s
    else s

/-! ### Thresholds of the released run -/

/-- The released run reaches the frame gap (R5, R7). -/
def Line.reachFrameGap (l : Line) : Line :=
  { l with cond := .opened, lineHeld := false, holdRun := 0, releasedRun := Config.frameGap }

/-- A WAITING frame of the slot starts (R14). -/
def State.startWaiting (s : State) : State :=
  match s.line.slot with
  | .waiting f => s.startFrame f
  | .sending _ => s
  | .empty => s

/-- A start moment that finds another station's hold, no older than a quarter cell: a WAITING frame starts on that hold
edge; without one the hold edge begins a frame in GAP and none in RESYNC (R5, R14, log 8). -/
def State.startAligned (s : State) : State :=
  match s.line.slot, s.line.cond with
  | .waiting f, _ => s.startFrame f
  | _, .gap => s.withLine s.line.frameBegin
  | _, _ => s

/-- START_OPPORTUNITY: the released run reaches 6 cells in GAP or RESYNC, OPEN begins and a WAITING frame starts; with
`aligned` the start moment finds a hold no older than a quarter cell (R7, R14, log 8). -/
def execStartOpportunity (aligned : Bool) (s : State) : Host.Outcome State Fault Refusal :=
  .next <| s.unlessReset <|
    if s.line.cond = .gap ∨ s.line.cond = .resync then
      if aligned then s.startAligned else (s.withLine s.line.reachFrameGap).startWaiting
    else s

/-- OPPORTUNITY_MISSED: a POST stays WAITING, a WAITING ANSWER is given up (R14, R16). -/
def execOpportunityMissed (s : State) : Host.Outcome State Fault Refusal :=
  .next <| s.unlessReset <|
    match s.line.slot with
    | .waiting (.answer _) => s.giveUpAnswer
    | .waiting (.post _) => s
    | .sending _ => s
    | .empty => s

/-- ANSWER_WINDOW_TIMEOUT: the released run reaches 10 cells in OPEN with no frame started; the window closes (R9). -/
def execAnswerWindowTimeout (s : State) : Host.Outcome State Fault Refusal :=
  .next <| s.unlessReset <|
    if s.line.cond = .opened ∧ s.line.window = true then
      s.withLine { s.line with window := false, releasedRun := Config.answerWindow }
    else s

/-- The line-fault flag at 12 cells of release: cleared with LINE-RELEASED if it is set (R12). -/
def State.quietLine (s : State) : State :=
  if s.line.fault then (s.withLine { s.line with fault := false }).offer .lineReleased 0 0 else s

/-- An owed mark at the quiet for the phase gap: originated, with MARK-DEFERRED and both counters (R43). -/
def State.quietOwed (s : State) : State :=
  match s.round.owed with
  | none => s
  | some cause =>
    let marked := (s.offer .markDeferred 0 cause.code).originateMark
    marked.withRound { marked.round with owed := none, marksDeferred := satInc marked.round.marksDeferred }

/-- The posting close at the quiet for the phase gap (R51). -/
def State.quietClose (s : State) : State := s.postingClose .quiet

/-- The three parts of the quiet in the order in which they are taken (R53, R181). -/
def State.quietParts (s : State) (order : QuietOrder) : State :=
  match order with
  | .lineOwedClose => s.quietLine.quietOwed.quietClose
  | .lineCloseOwed => s.quietLine.quietClose.quietOwed
  | .owedLineClose => s.quietOwed.quietLine.quietClose
  | .owedCloseLine => s.quietOwed.quietClose.quietLine
  | .closeLineOwed => s.quietClose.quietLine.quietOwed
  | .closeOwedLine => s.quietClose.quietOwed.quietLine

/-- QUIET_FOR_PHASE_GAP: the released run reaches 12 cells with the line not busy (R7). -/
def execQuietForPhaseGap (order : QuietOrder) (s : State) : Host.Outcome State Fault Refusal :=
  .next <| s.unlessReset <|
    if s.line.cond = .opened ∧ s.line.window = false then
      (s.withLine { s.line with releasedRun := Config.phaseGap }).quietParts order
    else s

/-! ### Long holds and marks -/

/-- LONG_HOLD: a hold lasts to the Q4 sample point of a cell (R3, R5). A frame of the node that is SENDING stays so: the node
has stopped driving it, and its outcome waits for the release or the mark (R15, State.drivesFrame). -/
def execLongHold (s : State) : Host.Outcome State Fault Refusal :=
  .next <| s.unlessReset <|
    if s.line.cond = .frame ∨ s.line.cond = .resync then
      s.withLine { s.line with cond := .longHold, lineHeld := true, holdRun := Config.q4Sample, releasedRun := 0 }
    else s

/-- LONG_HOLD_RELEASED: RESYNC without a mark; a frame that the hold grew out of is malformed at this release (R5, R6, R29,
log 7). A mark hold of the node goes on (R10); an attempt whose outcome waited ends by its own row, and this shape error is
no drive failure of it (R15). -/
def execLongHoldReleased (s : State) : Host.Outcome State Fault Refusal :=
  .next <| s.unlessReset <|
    if s.line.cond = .longHold then
      if s.line.receiving then s.withLine { s.line.malformed .resync with lineHeld := false }
      else s.withLine { s.line with cond := .resync, lineHeld := false, holdRun := 0, releasedRun := 0 }
    else s

/-- RESYNC_HOLD_RELEASED: the condition stays RESYNC and the released run counts again from 0 (R5). -/
def execResyncHoldReleased (s : State) : Host.Outcome State Fault Refusal :=
  .next <| s.unlessReset <|
    if s.line.cond = .resync then s.withLine { s.line with lineHeld := false, holdRun := 0, releasedRun := 0 } else s

/-- MARK_HOLD_END: 12 cells after it began the node's mark hold ends (R10). The level follows the line, and its release is
reported by MARK_END. -/
def execMarkHoldEnd (s : State) : Host.Outcome State Fault Refusal :=
  .next <| s.unlessReset <| s.withLine { s.line with markHold := false }

/-- Recognition in the line interface: MARKED, a frame being received aborted without being counted, the answer window
closed, and an ANSWER in the slot given up; a POST stays for stage 1 of the instant to discard (R11, R17, R53). -/
def Line.recognize (l : Line) : Line :=
  { l with cond := .marked, lineHeld := true, holdRun := Config.markRecognition, releasedRun := 0,
           receiving := false, window := false, slot := if l.slot.hasAnswer then .empty else l.slot }

/-- MARK_RECOGNIZED: the hold run reaches 2 cells. The report of a given-up answer and the epoch instant are taken in the
order `first` gives (R11, R45, R164, log 6). -/
def execMarkRecognized (first : TakenFirst) (s : State) : Host.Outcome State Fault Refusal :=
  .next <| s.unlessReset <|
    if s.line.cond = .longHold then
      let recognized := s.withLine s.line.recognize
      if s.line.slot.hasAnswer then
        match first with
        | .answerReport => recognized.answerEnded.epochInstant
        | .otherReport => recognized.epochInstant.answerEnded
      else recognized.epochInstant
    else s

/-- MARK_END: the line is released after a mark: GAP, EPOCH released, and MARK moves to POSTING (R5, R49, R50). -/
def execMarkEnd (s : State) : Host.Outcome State Fault Refusal :=
  .next <| s.unlessReset <|
    if s.line.cond = .marked then
      (s.withLine { s.line with cond := .gap, lineHeld := false, holdRun := 0, releasedRun := 0 }).withRound
        { s.round with epochOut := false, phase := if s.round.phase = .mark then .posting else s.round.phase }
    else s

/-- LINE_STUCK: the hold run reaches 64 cells; the line-fault flag is set, with LINE-STUCK if it was clear (R12). -/
def execLineStuck (s : State) : Host.Outcome State Fault Refusal :=
  .next <| s.unlessReset <|
    if s.line.cond = .marked then
      let held := s.withLine { s.line with holdRun := Config.stuckLimit, fault := true }
      if s.line.fault then held else held.offer .lineStuck 0 0
    else s

end Sys2Proof.Machine
end

