-- ==== Sys2Proof/Machine/Attempts.lean ====
section
/-! DEFINITION. The outcomes of the node's transmission attempts (R15, R16), the transmit error run (R18, R67) and duplicate evidence (R72, R73). -/

namespace Sys2Proof.Machine

/-- A success in ACTIVE sets the transmit error run to 0; in any other state nothing changes it (R18). -/
def State.clearRun (s : State) : State :=
  if s.node.state = .active then s.withLine { s.line with txRun := 0 } else s

/-- A failed attempt counts in ACTIVE, up to 8 (R18). -/
def State.countRun (s : State) : State :=
  if s.node.state = .active then
    s.withLine { s.line with txRun := min Config.errorRunLimit (s.line.txRun + 1) }
  else s

/-- A run of 8 in ACTIVE moves the node to MUTE with count 16, after a TX-ERROR-RUN record (R67). -/
def State.judgeRun (s : State) (detail : BitVec 8) : State :=
  if s.node.state = .active ∧ Config.errorRunLimit ≤ s.line.txRun then
    (s.offer .txErrorRun s.own detail).enterMute 16
  else s

/-- A failed attempt counted and the run judged (R18, R67). -/
def State.failAttempt (s : State) (detail : BitVec 8) : State := s.countRun.judgeRun detail

/-- TX_SUCCESS: the slot empties; an own POST is delivered and clears the duplicate-suspect flag, an own ANSWER is reported
to the handler; the frame's end closes an answer window (R6, R9, R16, R18, R72). It is the end of a frame, so the line
condition before it is FRAME. -/
def execTxSuccess (s : State) : Host.Outcome State Fault Refusal :=
  .next <| s.unlessReset <|
    if s.line.cond = .frame then
      match s.line.slot with
      | .sending (.post p) =>
        let sent := (s.withLine { s.line.frameEnd with slot := .empty }).clearRun
        (sent.withNode { sent.node with dupSuspect := false }).deliverPost p
      | .sending (.answer _) => ((s.withLine { s.line.frameEnd with slot := .empty }).clearRun).answerEnded
      | .waiting _ => s
      | .empty => s
    else s

/-- ARBITRATION_LOSS: a POST waits for the next start opportunity, an ANSWER is given up; no run changes (R15, R16). -/
def execArbitrationLoss (s : State) : Host.Outcome State Fault Refusal :=
  .next <| s.unlessReset <|
    match s.line.slot with
    | .sending (.post p) => s.setSlot (.waiting (.post p))
    | .sending (.answer _) => (s.setSlot .empty).answerEnded
    | .waiting _ => s
    | .empty => s

/-- An ANSWER whose attempt failed is given up, and the attempt counts; the two reports are taken in the order `first` gives
(R16, R68, R164). -/
def State.failAnswer (s : State) (first : TakenFirst) (detail : BitVec 8) : State :=
  match first with
  | .answerReport => (s.setSlot .empty).answerEnded.failAttempt detail
  | .otherReport => ((s.setSlot .empty).failAttempt detail).answerEnded

/-- COLLISION: an own POST sets the collision note and waits, or, when the duplicate-suspect flag is set, bars the node;
an ANSWER is given up; the attempt counts in ACTIVE (R15, R16, R18, R67, R72, R73). -/
def execCollision (first : TakenFirst) (s : State) : Host.Outcome State Fault Refusal :=
  .next <| s.unlessReset <|
    match s.line.slot with
    | .sending (.post p) =>
      if s.node.dupSuspect then s.countRun.enterBarred p.tag
      else ((s.setSlot (.waiting (.post p))).withNode { s.node with collisionNote := true }).failAttempt 1
    | .sending (.answer _) => s.failAnswer first 1
    | .waiting _ => s
    | .empty => s

/-- DRIVE_FAILURE: a POST waits for the next start opportunity, an ANSWER is given up; the attempt counts in ACTIVE (R15, R16, R18, R67). -/
def execDriveFailure (first : TakenFirst) (s : State) : Host.Outcome State Fault Refusal :=
  .next <| s.unlessReset <|
    match s.line.slot with
    | .sending (.post p) => (s.setSlot (.waiting (.post p))).failAttempt 2
    | .sending (.answer _) => s.failAnswer first 2
    | .waiting _ => s
    | .empty => s

end Sys2Proof.Machine
end

