-- ==== Sys2Proof/Machine/Measurement.lean ====
section
/-! DEFINITION. The events of the sampler and the aux channel: stage ends, edges and timeouts. -/

namespace Sys2Proof.Machine

/-- EXCITE_END: the coil is released; SETTLE, or COUNT with a settle time of 0 (R81, R82, R83). -/
def execExciteEnd (s : State) : Host.Outcome State Fault Refusal :=
  .next <| s.unlessReset <| if s.sampler.stage = .excite then s.withSampler s.sampler.endExcite else s

/-- SETTLE_END: COUNT with its first-edge timer (R83, R84). -/
def execSettleEnd (s : State) : Host.Outcome State Fault Refusal :=
  .next <| s.unlessReset <| if s.sampler.stage = .settle then s.withSampler s.sampler.enterCount else s

/-- SENSOR_EDGE: a rising zero-crossing in COUNT; outside COUNT it is not counted (R80, R84, R85). -/
def execSensorEdge (clocks : Nat) (s : State) : Host.Outcome State Fault Refusal :=
  .next <| s.unlessReset <| if s.sampler.stage = .count then s.takeEdge clocks else s

/-- FIRST_EDGE_TIMEOUT: 20 ms in COUNT without an edge: NO-SIGNAL (R84). -/
def execFirstEdgeTimeout (s : State) : Host.Outcome State Fault Refusal :=
  .next <| s.unlessReset <|
    if s.sampler.stage = .count ∧ s.sampler.work.started = false then s.completeReading .noSignal else s

/-- COUNT_WINDOW_END: the window W ends before edge N: NO-SIGNAL (R86). -/
def execCountWindowEnd (s : State) : Host.Outcome State Fault Refusal :=
  .next <| s.unlessReset <|
    if s.sampler.stage = .count ∧ s.sampler.work.started = true then s.completeReading .noSignal else s

/-- AUX_EDGE: an edge of the AUX input (R104, R105). While RESET is held the channel does not sample the input, whose level
follows the sensor all the same (R109, log 10). -/
def execAuxEdge (rising : Bool) (clocks : Nat) (s : State) : Host.Outcome State Fault Refusal :=
  .next (s.withAux (if s.node.resetHeld then { s.aux with pin := rising } else s.aux.takeEdge rising clocks))

/-- AUX_EDGE_TIMEOUT: 50 ms at one level while MEASURING: STUCK-HIGH or STUCK-LOW by that level (R106). -/
def execAuxEdgeTimeout (s : State) : Host.Outcome State Fault Refusal :=
  .next <| s.unlessReset <|
    if s.aux.stage = .measuring then s.withAux (s.aux.complete (stuckResult s.aux.pin)) else s

end Sys2Proof.Machine
end

