-- ==== Sys2Proof/Machine/Records.lean ====
section
/-! DEFINITION. The records carried in answers (R33 to R36), as octets. -/

namespace Sys2Proof.Machine

/-- The node state as the status record reports it; a node in MUTE or BARRED answers nothing, and the record has no code for it (R33). -/
def NodeState.reported : NodeState → Option (BitVec 3)
  | .setup => some 0
  | .listen => some 1
  | .active => some 2
  | .mute => none
  | .barred => none

/-- The 21-octet status record, `code` being the reported node state (R33). -/
def State.statusRecord (s : State) (code : BitVec 3) : List Byte :=
  [code ++ BitVec.ofBool s.groups.alarm ++ BitVec.ofBool s.node.straps.auxEnabled ++ BitVec.ofBool s.line.fault ++ 0#2]
  ++ octets16 s.round.roundCount
  ++ [s.round.tag]
  ++ octets16 s.handler.digest
  ++ octets16 s.line.rxErrors
  ++ [BitVec.ofNat 8 s.line.txRun]
  ++ octets16 s.round.marksOriginated
  ++ [s.round.marksDeferred]
  ++ octets16 s.sampler.overruns
  ++ octets16 s.round.postsLost
  ++ octets16 s.table.misaligned
  ++ [BitVec.ofNat 8 s.log.records.length, s.log.dropped, 0#8]

/-- The entry-state codes of R34. -/
def EntryState.code : EntryState → BitVec 3
  | .vacant => 0
  | .seen => 1
  | .present => 2
  | .lapsing => 3
  | .lapsed => 4

/-- The fields of a record that is not VACANT (R34). -/
def Entry.fullRecord (e : Entry) : List Byte :=
  [e.state.code ++ BitVec.ofBool e.lastValue.isSome ++ BitVec.ofBool e.lastAux.isSome ++ e.group, e.lastTag,
    e.lastQuality.code ++ BitVec.ofBool e.alarm ++ BitVec.ofNat 4 e.missRun]
  ++ valueOctets e.lastValue ++ auxOctets e.lastAux
  ++ octets16 e.heard ++ octets16 e.misses ++ octets16 e.lastHeard

/-- The entry record: 1 octet for VACANT, 9 to 14 for any other state (R34). -/
def Entry.octets (e : Entry) : List Byte :=
  match e.state with
  | .vacant => [0#8]
  | .seen => e.fullRecord
  | .present => e.fullRecord
  | .lapsing => e.fullRecord
  | .lapsed => e.fullRecord

/-- The octets that follow the sum when the group has contributors (R35). -/
def Extremes.octets (x : Extremes) : List Byte :=
  [x.minStation.setWidth 8] ++ octets24 (BitVec.ofInt 24 x.minimum)
  ++ [x.maxStation.setWidth 8] ++ octets24 (BitVec.ofInt 24 x.maximum)
  ++ octets24 (BitVec.ofInt 24 x.mean)

/-- The group record with the group's limit state and incomplete run: 10 octets, or 21 with contributors (R35). -/
def GroupCell.octets (c : GroupCell) : List Byte :=
  [BitVec.ofNat 8 c.record.expected, BitVec.ofNat 8 c.record.contributors,
    BitVec.ofBool c.record.complete ++ c.limit.code ++ 0#5, c.run]
  ++ octets16 c.record.lastClose ++ octets32 (BitVec.ofInt 32 c.record.sum)
  ++ (match c.record.extremes with
      | some x => x.octets
      | none => [])

/-- The event-kind codes of R36. -/
def EventKind.code : EventKind → BitVec 8
  | .setupClosed => 1
  | .strapInvalid => 2
  | .markDeferred => 3
  | .sampleOverrun => 4
  | .sensorFault => 5
  | .sensorRecovered => 6
  | .postLost => 7
  | .stationNew => 8
  | .stationLapsed => 9
  | .stationReturned => 10
  | .groupLimit => 11
  | .groupIncomplete => 12
  | .tagSlip => 13
  | .txErrorRun => 14
  | .duplicateNumber => 15
  | .lineStuck => 16
  | .lineReleased => 17
  | .restarted => 18

/-- The 5-octet event record (R36). -/
def EventRecord.octets (r : EventRecord) : List Byte :=
  [r.kind.code] ++ octets16 r.roundCount ++ [r.station.setWidth 8, r.detail]

/-- The READ-EVENTS payload: events held, then the oldest records, at most `count` of them (R28, R167). -/
def EventLog.readPayload (l : EventLog) (count : Nat) : List Byte :=
  [BitVec.ofNat 8 l.records.length] ++ (l.records.take count).flatMap EventRecord.octets

/-- The log after an ACK-EVENTS with this count: the oldest records removed and the dropped counter cleared (R168, R185). -/
def EventLog.acknowledge (l : EventLog) (count : Nat) : EventLog :=
  { records := l.records.drop count, dropped := 0 }

/-- The ACK-EVENTS payload: records remaining, then the dropped counter as it stood (R168). -/
def EventLog.ackPayload (l : EventLog) (count : Nat) : List Byte :=
  [BitVec.ofNat 8 (l.acknowledge count).records.length, l.dropped]

end Sys2Proof.Machine
end

