-- ==== Sys2Proof/Machine/Operands.lean ====
section
/-! DEFINITION. The operands of the request rows: the frame's octets judged as a REQUEST, its delivery and taking (R32, R156), the answer window it opens (R9), and how a status is answered (R157, R158). -/

namespace Sys2Proof.Machine

/-- The five statuses of an answer (R28, R160). -/
inductive Status where
  | done
  | refusedCode
  | refusedArg
  | refusedState
  | refusedLocked
deriving DecidableEq, Repr

/-- The status codes of R28. -/
def Status.code : Status → Byte
  | .done => 0
  | .refusedCode => 1
  | .refusedArg => 2
  | .refusedState => 3
  | .refusedLocked => 4

/-- The twelve request codes of R27. -/
inductive RequestCode where
  | readStatus
  | readEntry
  | readGroup
  | readEvents
  | ackEvents
  | forget
  | quiet
  | restart
  | configurePlan
  | configureCal
  | configureLimits
  | closeSetup
deriving DecidableEq, Repr

/-- The octet of a request code (R27). -/
def RequestCode.octet : RequestCode → Byte
  | .readStatus => 1
  | .readEntry => 2
  | .readGroup => 3
  | .readEvents => 4
  | .ackEvents => 5
  | .forget => 17
  | .quiet => 18
  | .restart => 19
  | .configurePlan => 33
  | .configureCal => 34
  | .configureLimits => 35
  | .closeSetup => 36

/-- All twelve request codes (R27). -/
def requestCodes : List RequestCode :=
  [.readStatus, .readEntry, .readGroup, .readEvents, .ackEvents, .forget, .quiet, .restart,
    .configurePlan, .configureCal, .configureLimits, .closeSetup]

/-- The octet is one of the twelve codes in use (R27, R158 step 1). -/
def knownCode (code : Byte) : Bool := requestCodes.any fun c => c.octet == code

/-- The request is a broadcast (R26). -/
def Request.broadcast (r : Request) : Bool := r.target == 63

/-- The request is delivered to the handler: its target is the node's own station number, which is 1..62, or 63 (R32, R156). -/
def State.addressed (s : State) (r : Request) : Bool :=
  r.broadcast || (s.sampling && r.target == s.own)

/-- The handler takes the request in this node state (R156). -/
def NodeState.takes (st : NodeState) (r : Request) : Bool :=
  let restart := r.code == RequestCode.restart.octet
  let close := r.code == RequestCode.closeSetup.octet
  match st with
  | .setup => !r.broadcast || restart || close
  | .listen => !r.broadcast || restart || close
  | .active => !r.broadcast || restart || close
  | .mute => restart
  | .barred => false

/-- A valid REQUEST ends: the frame ends, closing an earlier answer window, and a target 1..62 opens a new one (R6, R9).
The judgment has refused target 0 (R29). -/
def Line.requestEnd (l : Line) (r : Request) : Line := { l.frameEnd with window := !r.broadcast }

/-- The octets as a valid REQUEST, if they are one. -/
def requestOf (octets : List Byte) : Option Request :=
  match judge octets with
  | .valid (.request r) => some r
  | .valid (.post _) => none
  | .valid (.answer _) => none
  | .malformed _ => none
  | .incomplete => none

/-- A valid REQUEST that meets `accepts` ends on the line, and `handle` is its effect when the node is addressed and takes
it. Octets that are no such request, or no frame being received, are not this event (log 5). -/
def State.onRequest (s : State) (octets : List Byte) (accepts : Request → Bool)
    (handle : Request → State → State) : State :=
  if s.line.cond = .frame then
    match requestOf octets with
    | some r =>
      if accepts r then
        let ended := s.withLine (s.line.requestEnd r)
        if s.addressed r && s.node.state.takes r then handle r ended else ended
      else s
    | none => s
  else s

/-- The answer of a request with a status, and the effect that waits for its end; a broadcast is answered by nothing and a
DONE one has its effect at once (R157, R163). A refusal carries no payload and has no effect (R160). -/
def State.respond (s : State) (r : Request) (status : Status) (payload : List Byte) (effect : Awaited) : State :=
  if r.broadcast then
    match status with
    | .done => s.carryOut effect
    | .refusedCode => s
    | .refusedArg => s
    | .refusedState => s
    | .refusedLocked => s
  else s.offerAnswer { source := s.own, code := r.code, status := status.code, payload := payload } effect

/-- A refusal (R160). -/
def State.refuse (s : State) (r : Request) (status : Status) : State := s.respond r status [] .none

/-- A DONE answer with a payload and no effect to follow (R163). -/
def State.answer (s : State) (r : Request) (payload : List Byte) : State := s.respond r .done payload .none

/-- The only argument octet of a request with argument length 1 that lies in lo..hi (R27, R158 step 2). -/
def oneArg (args : List Byte) (lo hi : Nat) : Option Byte :=
  match args with
  | [a] => if lo ≤ a.toNat ∧ a.toNat ≤ hi then some a else none
  | _ => none

end Sys2Proof.Machine
end

