-- ==== Sys2Proof/Machine/Requests.lean ====
section
/-! DEFINITION. The service requests (spec/09_service_requests_and_answers.md): one meaning for each request row. -/

namespace Sys2Proof.Machine

/-- The request carries this code (R158 step 1). -/
def hasCode (c : RequestCode) (r : Request) : Bool := r.code == c.octet

/-! ### Reads and log requests -/

/-- READ-STATUS when taken: no argument; DONE in SETUP, LISTEN and ACTIVE (R165). -/
def handleReadStatus (r : Request) (s : State) : State :=
  if r.args = [] then
    match s.node.state.reported with
    | some code => s.answer r (s.statusRecord code)
    | none => s
  else s.refuse r .refusedArg

/-- READ_STATUS (R165). -/
def execReadStatus (octets : List Byte) (s : State) : Host.Outcome State Fault Refusal :=
  .next <| s.unlessReset <| s.onRequest octets (hasCode .readStatus) handleReadStatus

/-- READ-ENTRY when taken: station 1..62; refused in SETUP (R166). -/
def handleReadEntry (r : Request) (s : State) : State :=
  match oneArg r.args 1 62 with
  | some a =>
    if s.node.state = .setup then s.refuse r .refusedState
    else s.answer r (s.table.entry (a.setWidth 6)).octets
  | none => s.refuse r .refusedArg

/-- READ_ENTRY (R166). -/
def execReadEntry (octets : List Byte) (s : State) : Host.Outcome State Fault Refusal :=
  .next <| s.unlessReset <| s.onRequest octets (hasCode .readEntry) handleReadEntry

/-- READ-GROUP when taken: group 0..7; refused in SETUP (R166). -/
def handleReadGroup (r : Request) (s : State) : State :=
  match oneArg r.args 0 7 with
  | some a =>
    if s.node.state = .setup then s.refuse r .refusedState
    else s.answer r (s.groups.cells[(a.extractLsb' 0 3).toFin]).octets
  | none => s.refuse r .refusedArg

/-- READ_GROUP (R166). -/
def execReadGroup (octets : List Byte) (s : State) : Host.Outcome State Fault Refusal :=
  .next <| s.unlessReset <| s.onRequest octets (hasCode .readGroup) handleReadGroup

/-- READ-EVENTS when taken: count 1..4; it removes nothing (R167). -/
def handleReadEvents (r : Request) (s : State) : State :=
  match oneArg r.args 1 4 with
  | some a => s.answer r (s.log.readPayload a.toNat)
  | none => s.refuse r .refusedArg

/-- READ_EVENTS (R167). -/
def execReadEvents (octets : List Byte) (s : State) : Host.Outcome State Fault Refusal :=
  .next <| s.unlessReset <| s.onRequest octets (hasCode .readEvents) handleReadEvents

/-- ACK-EVENTS when taken: count 1..16; the log is changed first, then the answer composed (R168). -/
def handleAckEvents (r : Request) (s : State) : State :=
  match oneArg r.args 1 16 with
  | some a => (s.withLog (s.log.acknowledge a.toNat)).answer r (s.log.ackPayload a.toNat)
  | none => s.refuse r .refusedArg

/-- ACK_EVENTS (R168). -/
def execAckEvents (octets : List Byte) (s : State) : Host.Outcome State Fault Refusal :=
  .next <| s.unlessReset <| s.onRequest octets (hasCode .ackEvents) handleAckEvents

/-! ### Commands -/

/-- FORGET when taken: station 1..62; a LAPSED entry becomes VACANT, any other is left and refused (R131, R169). -/
def handleForget (r : Request) (s : State) : State :=
  match oneArg r.args 1 62 with
  | some a =>
    if s.node.state = .setup then s.refuse r .refusedState
    else if (s.table.entry (a.setWidth 6)).state = .lapsed then
      (s.withTable (s.table.withEntry (a.setWidth 6) Entry.vacant)).answer r []
    else s.refuse r .refusedState
  | none => s.refuse r .refusedArg

/-- FORGET (R169). -/
def execForget (octets : List Byte) (s : State) : Host.Outcome State Fault Refusal :=
  .next <| s.unlessReset <| s.onRequest octets (hasCode .forget) handleForget

/-- QUIET when taken: rounds 1..255; permitted in ACTIVE, its effect waits for the answer (R170). -/
def handleQuiet (r : Request) (s : State) : State :=
  match oneArg r.args 1 255 with
  | some a =>
    if s.node.state = .active then s.respond r .done [] (.quiet a) else s.refuse r .refusedState
  | none => s.refuse r .refusedArg

/-- QUIET (R170). -/
def execQuiet (octets : List Byte) (s : State) : Host.Outcome State Fault Refusal :=
  .next <| s.unlessReset <| s.onRequest octets (hasCode .quiet) handleQuiet

/-- RESTART when taken: no argument; refused in SETUP (R171). -/
def handleRestart (r : Request) (s : State) : State :=
  if r.args = [] then
    if s.node.state = .setup then s.refuse r .refusedState else s.respond r .done [] .restart
  else s.refuse r .refusedArg

/-- RESTART (R171). -/
def execRestart (octets : List Byte) (s : State) : Host.Outcome State Fault Refusal :=
  .next <| s.unlessReset <| s.onRequest octets (hasCode .restart) handleRestart

/-- CLOSE-SETUP when taken: no argument; permitted in SETUP (R172). A broadcast one clears an awaited CLOSE-SETUP (R164). -/
def handleCloseSetup (r : Request) (s : State) : State :=
  if r.args = [] then
    if s.node.state = .setup then
      if r.broadcast then (s.withHandler { s.handler with awaited := .none }).respond r .done [] .closeSetup
      else s.respond r .done [] .closeSetup
    else s.refuse r .refusedState
  else s.refuse r .refusedArg

/-- CLOSE_SETUP (R172). -/
def execCloseSetup (octets : List Byte) (s : State) : Host.Outcome State Fault Refusal :=
  .next <| s.unlessReset <| s.onRequest octets (hasCode .closeSetup) handleCloseSetup

/-! ### Configuration -/

/-- The store written and its digest kept equal to its check (R177). -/
def State.writeStore (s : State) (store : Store) : State :=
  s.withHandler { s.handler with store := store, digest := store.digest }

/-- A CONFIGURE request when taken: `written` is the store its argument writes over the stored one, `none` when a length or
range fails; outside SETUP it is refused as locked (R158, R173). -/
def State.configure (s : State) (r : Request) (written : Option Store) : State :=
  match written with
  | some store => if s.node.state = .setup then (s.writeStore store).answer r [] else s.refuse r .refusedLocked
  | none => s.refuse r .refusedArg

/-- CONFIGURE-PLAN when taken (R174). -/
def handleConfigurePlan (r : Request) (s : State) : State := s.configure r (configurePlan r.args s.handler.store)

/-- CONFIGURE_PLAN (R174). -/
def execConfigurePlan (octets : List Byte) (s : State) : Host.Outcome State Fault Refusal :=
  .next <| s.unlessReset <| s.onRequest octets (hasCode .configurePlan) handleConfigurePlan

/-- CONFIGURE-CAL when taken (R175). -/
def handleConfigureCal (r : Request) (s : State) : State := s.configure r (configureCal r.args s.handler.store)

/-- CONFIGURE_CAL (R175). -/
def execConfigureCal (octets : List Byte) (s : State) : Host.Outcome State Fault Refusal :=
  .next <| s.unlessReset <| s.onRequest octets (hasCode .configureCal) handleConfigureCal

/-- CONFIGURE-LIMITS when taken (R176). -/
def handleConfigureLimits (r : Request) (s : State) : State := s.configure r (configureLimits r.args s.handler.store)

/-- CONFIGURE_LIMITS (R176). -/
def execConfigureLimits (octets : List Byte) (s : State) : Host.Outcome State Fault Refusal :=
  .next <| s.unlessReset <| s.onRequest octets (hasCode .configureLimits) handleConfigureLimits

/-! ### Requests that are not acted on -/

/-- A request of an unknown code when taken (R158 step 1). -/
def handleUnknownCode (r : Request) (s : State) : State := s.refuse r .refusedCode

/-- UNKNOWN_REQUEST_CODE (R158). -/
def execUnknownRequestCode (octets : List Byte) (s : State) : Host.Outcome State Fault Refusal :=
  .next <| s.unlessReset <| s.onRequest octets (fun r => !knownCode r.code) handleUnknownCode

/-- A request that reaches no handler has no effect beyond its end on the line. -/
def handleNothing (_ : Request) (s : State) : State := s

/-- REQUEST_OTHER_TARGET: a valid REQUEST to another station ends; it opens an answer window and is not delivered (R9, R32). -/
def execRequestOtherTarget (octets : List Byte) (s : State) : Host.Outcome State Fault Refusal :=
  .next <| s.unlessReset <| s.onRequest octets (fun r => !s.addressed r) handleNothing

/-- REQUEST_IGNORED: a valid REQUEST delivered to the node is ignored in its state (R156); a single-target one opens an
answer window all the same (R9). -/
def execRequestIgnored (octets : List Byte) (s : State) : Host.Outcome State Fault Refusal :=
  .next <| s.unlessReset <| s.onRequest octets (fun r => s.addressed r && !s.node.state.takes r) handleNothing

end Sys2Proof.Machine
end

