-- ==== Sys2Proof/Machine/Resets.lean ====
section
/-! DEFINITION. Power-on and the RESET pin (R77). -/

namespace Sys2Proof.Machine

/-- The node while RESET is held: nothing is driven, ALARM and EPOCH are released, no timer runs and every block holds its
power-on value; the straps are not latched (R77, log 11). -/
def State.heldInReset (s : State) : State :=
  let released := State.atRelease Straps.allLow s.line.lineHeld s.aux.pin
  { released with node := { released.node with resetHeld := true, setupTimer := none }, pending := s.pending }

/-- RESET_ASSERTED: power-on, or RESET held low (R77). -/
def execResetAsserted (s : State) : Host.Outcome State Fault Refusal := .next s.heldInReset

/-- RESET_RELEASE: the straps are latched, every block takes its power-on values and the node enters SETUP; the line may be
held at that moment (R77, R58, R61, R192). -/
def execResetRelease (straps : Straps) (lineHeld : Bool) (s : State) : Host.Outcome State Fault Refusal :=
  .next { State.atRelease straps lineHeld s.aux.pin with pending := s.pending }

end Sys2Proof.Machine
end

