-- ==== Sys2Proof/Machine/Timers.lean ====
section
/-! DEFINITION. The expiries of the setup, epoch and listen timers (R40, R62, R63, R71). -/

namespace Sys2Proof.Machine

/-- SETUP_TIMER_EXPIRY: the node leaves SETUP with detail 0 (R62). -/
def execSetupTimerExpiry (s : State) : Host.Outcome State Fault Refusal :=
  .next <| s.unlessReset <|
    match s.node.setupTimer, s.node.state with
    | some _, .setup => s.exitSetup 0
    | _, _ => s

/-- The count-down of MUTE at an expiry: at 0 the node enters ACTIVE and claims a mark (R71). -/
def State.muteExpiry (s : State) : State :=
  if s.round.muteCount.toNat ≤ 1 then (s.withRound { s.round with muteCount := 0 }).enterActive.claimMark
  else s.withRound { s.round with muteCount := s.round.muteCount - 1 }

/-- EPOCH_TIMER_EXPIRY: the timer is reloaded; a sampling node in ACTIVE claims a mark, MUTE counts down (R39, R40). -/
def execEpochTimerExpiry (s : State) : Host.Outcome State Fault Refusal :=
  .next <| s.unlessReset <|
    match s.round.epochTimer with
    | some _ =>
      let reloaded := s.withRound { s.round with epochTimer := some s.period }
      match s.node.state with
      | .active => reloaded.claimMark
      | .mute => reloaded.muteExpiry
      | .setup => reloaded
      | .listen => reloaded
      | .barred => reloaded
    | none => s

/-- LISTEN_TIMER_EXPIRY: the listen-claim flag is set, the timer reloaded and a mark claimed (R63). -/
def execListenTimerExpiry (s : State) : Host.Outcome State Fault Refusal :=
  .next <| s.unlessReset <|
    match s.round.listenTimer, s.node.state with
    | some _, .listen =>
      ((s.withNode { s.node with listenClaim := true }).withRound
        { s.round with listenTimer := s.listenLoad }).claimMark
    | _, _ => s

end Sys2Proof.Machine
end

