-- ==== Sys2Proof/Machine/Dispatch.lean ====
section
/-! DEFINITION. One arm for each command. -/

namespace Sys2Proof.Machine

/-- The effect of a command on everything but the queue: one meaning for each row of the table. -/
def exec (i : Instr) (s : State) : Host.Outcome State Fault Refusal :=
  match i with
  | .resetAsserted => Sys2Proof.Machine.execResetAsserted s
  | .resetRelease straps lineHeld => Sys2Proof.Machine.execResetRelease straps lineHeld s
  | .startOpportunity aligned => Sys2Proof.Machine.execStartOpportunity aligned s
  | .opportunityMissed => Sys2Proof.Machine.execOpportunityMissed s
  | .firstOctetComplete octet => Sys2Proof.Machine.execFirstOctetComplete octet s
  | .malformedFrame report => Sys2Proof.Machine.execMalformedFrame report s
  | .postReceived octets => Sys2Proof.Machine.execPostReceived octets s
  | .answerReceived octets => Sys2Proof.Machine.execAnswerReceived octets s
  | .answerWindowTimeout => Sys2Proof.Machine.execAnswerWindowTimeout s
  | .readStatus octets => Sys2Proof.Machine.execReadStatus octets s
  | .readEntry octets => Sys2Proof.Machine.execReadEntry octets s
  | .readGroup octets => Sys2Proof.Machine.execReadGroup octets s
  | .readEvents octets => Sys2Proof.Machine.execReadEvents octets s
  | .ackEvents octets => Sys2Proof.Machine.execAckEvents octets s
  | .forget octets => Sys2Proof.Machine.execForget octets s
  | .quiet octets => Sys2Proof.Machine.execQuiet octets s
  | .restart octets => Sys2Proof.Machine.execRestart octets s
  | .configurePlan octets => Sys2Proof.Machine.execConfigurePlan octets s
  | .configureCal octets => Sys2Proof.Machine.execConfigureCal octets s
  | .configureLimits octets => Sys2Proof.Machine.execConfigureLimits octets s
  | .closeSetup octets => Sys2Proof.Machine.execCloseSetup octets s
  | .unknownRequestCode octets => Sys2Proof.Machine.execUnknownRequestCode octets s
  | .txSuccess => Sys2Proof.Machine.execTxSuccess s
  | .arbitrationLoss => Sys2Proof.Machine.execArbitrationLoss s
  | .collision first => Sys2Proof.Machine.execCollision first s
  | .driveFailure first => Sys2Proof.Machine.execDriveFailure first s
  | .setupTimerExpiry => Sys2Proof.Machine.execSetupTimerExpiry s
  | .epochTimerExpiry => Sys2Proof.Machine.execEpochTimerExpiry s
  | .listenTimerExpiry => Sys2Proof.Machine.execListenTimerExpiry s
  | .longHold => Sys2Proof.Machine.execLongHold s
  | .quietForPhaseGap order => Sys2Proof.Machine.execQuietForPhaseGap order s
  | .markHoldEnd => Sys2Proof.Machine.execMarkHoldEnd s
  | .markRecognized first => Sys2Proof.Machine.execMarkRecognized first s
  | .markEnd => Sys2Proof.Machine.execMarkEnd s
  | .lineStuck => Sys2Proof.Machine.execLineStuck s
  | .exciteEnd => Sys2Proof.Machine.execExciteEnd s
  | .settleEnd => Sys2Proof.Machine.execSettleEnd s
  | .sensorEdge clocks => Sys2Proof.Machine.execSensorEdge clocks s
  | .firstEdgeTimeout => Sys2Proof.Machine.execFirstEdgeTimeout s
  | .countWindowEnd => Sys2Proof.Machine.execCountWindowEnd s
  | .auxEdge rising clocks => Sys2Proof.Machine.execAuxEdge rising clocks s
  | .auxEdgeTimeout => Sys2Proof.Machine.execAuxEdgeTimeout s
  | .frameStart => Sys2Proof.Machine.execFrameStart s
  | .longHoldReleased => Sys2Proof.Machine.execLongHoldReleased s
  | .resyncHoldReleased => Sys2Proof.Machine.execResyncHoldReleased s
  | .requestOtherTarget octets => Sys2Proof.Machine.execRequestOtherTarget octets s
  | .requestIgnored octets => Sys2Proof.Machine.execRequestIgnored octets s

end Sys2Proof.Machine
end

