-- ==== Sys2Proof/Machine/Step.lean ====
section
/-! DEFINITION. One step of the node: the front command of the queue. -/

namespace Sys2Proof.Machine

/-- One step: the front command is taken from the queue and carried out on the queue's rest; on an empty queue the block
idles (log 2). -/
def step (s : State) : Host.Outcome State Fault Refusal :=
  match s.pending with
  | [] => .next s
  | c :: rest => exec c (s.withPending rest)

/-- The state with the command a table word spells at the front of its queue; unchanged where the word spells none (log 17). -/
def State.withFetchWord (s : State) (nbits w : Nat) : State :=
  match decodeTableWord nbits w with
  | some c => s.withPending (c :: s.pending)
  | none => s

end Sys2Proof.Machine
end

