-- ==== Sys2Proof/Safety.lean ====
section
/-! DEFINITION. What every state of a run is like, in the manual's own terms: the properties the statements about all commands use. -/

namespace Sys2Proof.Machine

/-- The log holds at most 16 records, and the dropped counter is non-zero only while it holds 16 (R182). -/
abbrev State.LogBounded (s : State) : Prop :=
  s.log.records.length ≤ 16 ∧ (s.log.dropped ≠ 0#8 → s.log.records.length = 16)

/-- A POST in the slot, WAITING or SENDING. -/
def Slot.post : Slot → Option Post
  | .waiting (.post p) => some p
  | .sending (.post p) => some p
  | .waiting (.answer _) => none
  | .sending (.answer _) => none
  | .empty => none

/-- The intake list holds one post of each source, from sources 1..62 only (R115), and so would a POST in the slot add one. -/
abbrev State.IntakeOk (s : State) : Prop :=
  (s.table.intake.map (·.source)).Nodup ∧
  (∀ p ∈ s.table.intake, samplingStation p.source = true) ∧
  (∀ p, s.line.slot.post = some p → samplingStation p.source = true)

/-- A POST is in the slot in ACTIVE only, under the node's own number and group, with the epoch tag minus 1 (R47). -/
abbrev State.PostOk (s : State) : Prop :=
  ∀ p, s.line.slot.post = some p →
    s.node.state = .active ∧ p.source = s.own ∧ p.group = s.node.straps.group ∧ p.tag = s.round.tag - 1

/-- The transmit error run is at most 8, and 8 in BARRED only (R18, R67). -/
abbrev State.RunOk (s : State) : Prop :=
  s.line.txRun ≤ 8 ∧ (s.line.txRun = 8 → s.node.state = .barred)

/-- A node in MUTE or BARRED, and a listener, holds no mark, no frame and no owed mark: it does not drive the line (R17, R59, R69, R74). -/
abbrev State.SilentOk (s : State) : Prop :=
  (s.node.state = .mute ∨ s.node.state = .barred ∨ s.sampling = false) →
    s.line.markHold = false ∧ s.line.slot = .empty ∧ s.round.owed = none

/-- A measurement is in flight in a sampling node in ACTIVE or MUTE only, and an aux measurement with AUXEN only (R80, R102, R103). -/
abbrev State.MeasuringOk (s : State) : Prop :=
  (s.sampler.stage ≠ .idle → s.samples = true) ∧
  (s.aux.stage ≠ .idle → s.samples = true ∧ s.node.straps.auxEnabled = true)

/-- Every limit record keeps low below high and the hysteresis at most their difference (R145, R176). -/
abbrev Store.LimitsOk (s : Store) : Prop :=
  ∀ g : Fin 8, boundsAgree (s.limit g).high (s.limit g).low (s.limit g).hysteresis = true

/-- The plan and the calibration lie in their ranges (R98, R37). -/
abbrev Store.PlanOk (s : Store) : Prop :=
  200 ≤ s.plan.bandLow.toNat ∧ s.plan.bandLow.toNat < s.plan.bandHigh.toNat ∧ s.plan.bandHigh.toNat ≤ 8000 ∧
  10 ≤ s.plan.sweep.toNat ∧ s.plan.sweep.toNat ≤ 200 ∧
  100 ≤ s.plan.tolerance.toNat ∧ s.plan.tolerance.toNat ≤ 50000 ∧ s.plan.lapse ≠ 0#4 ∧
  s.cal.zero.toNat ≤ 6400000

/-- The store is in range and the digest is its check (R145, R177, R98). -/
abbrev State.StoreOk (s : State) : Prop :=
  s.handler.store.LimitsOk ∧ s.handler.store.PlanOk ∧ s.handler.digest = s.handler.store.digest

/-- The aggregator holds its cleared values (R137). -/
abbrev Groups.isCleared (g : Groups) : Prop := g = Groups.cleared

/-- ALARM is the condition of R152, an unwatched group is NORMAL (R146), and in SETUP and LISTEN the aggregator is cleared (R137). -/
abbrev State.AlarmOk (s : State) : Prop :=
  s.groups.alarm = alarmCondition s.handler.store s.groups.cells ∧
  (∀ g : Fin 8, (s.handler.store.limit g).watched = false → s.groups.cells[g].limit = .normal) ∧
  (s.node.state = .setup ∨ s.node.state = .listen → s.groups.isCleared)

/-- The miss run of an entry, by its state and the lapse limit (R126), and the cleared fields of a VACANT one (R112). -/
abbrev Entry.Ok (e : Entry) (lapse : Nat) : Prop :=
  match e.state with
  | .vacant => e = Entry.vacant
  | .seen => e.missRun = 0
  | .present => e.missRun = 0
  | .lapsing => 1 ≤ e.missRun ∧ e.missRun < lapse
  | .lapsed => e.missRun = lapse

/-- Every entry keeps the rule of R126 under a lapse limit of at least 1, and in SETUP and LISTEN every entry is VACANT (R132). -/
abbrev State.EntriesOk (s : State) : Prop :=
  s.lapseLimit ≠ 0 ∧ (∀ i : Fin 62, s.table.entries[i].Ok s.lapseLimit) ∧
  (s.node.state = .setup ∨ s.node.state = .listen → ∀ i : Fin 62, s.table.entries[i] = Entry.vacant)

/-- A group record with contributors has minimum ≤ mean ≤ maximum; one without has sum 0 and no extremes (R136). -/
abbrev GroupRecord.Ok (r : GroupRecord) : Prop :=
  match r.extremes with
  | some x => 1 ≤ r.contributors ∧ x.minimum ≤ x.mean ∧ x.mean ≤ x.maximum
  | none => r.contributors = 0 ∧ r.sum = 0

/-- Every group record is as R136 says. -/
abbrev State.RecordsOk (s : State) : Prop := ∀ g : Fin 8, s.groups.cells[g].record.Ok

/-- EPOCH is asserted exactly in the MARK phase (R49, R50, R57), and in SETUP the phase is QUIET-WAIT (R50, R61). -/
abbrev State.PhaseOk (s : State) : Prop :=
  (s.round.epochOut = true ↔ s.round.phase = .mark) ∧ (s.node.state = .setup → s.round.phase = .quietWait)

/-- The epoch timer is stopped in SETUP and runs from P elsewhere (R39); the listen timer runs in LISTEN in a sampling node
only (R63, R66); the setup timer runs in SETUP only (R62, R78). -/
abbrev State.TimersOk (s : State) : Prop :=
  (s.round.epochTimer = if s.node.state = .setup then none else some s.period) ∧
  (s.round.listenTimer = if s.node.state = .listen then s.listenLoad else none) ∧
  (s.node.state ≠ .setup → s.node.setupTimer = none)

/-- A muted node has rounds left to count, and so has a QUIET that waits (R68 to R71). -/
abbrev State.MuteOk (s : State) : Prop :=
  (s.node.state = .mute → s.round.muteCount ≠ 0#8) ∧ (∀ n, s.handler.awaited = .quiet n → n ≠ 0#8)

/-- A frame is being received in FRAME, and else only in the LONG-HOLD that grew from one (R6). -/
abbrev State.ReceiverOk (s : State) : Prop :=
  (s.line.cond = .frame → s.line.receiving = true) ∧
  (s.line.receiving = true → s.line.cond = .frame ∨ s.line.cond = .longHold)

/-- The adoption state and the listen-claim flag serve LISTEN: elsewhere they hold NONE, 0 and clear (R78). -/
abbrev State.AdoptionOk (s : State) : Prop :=
  s.node.silentMarks ≤ 2 ∧
  (s.node.state ≠ .listen →
    s.node.adoption = .none ∧ s.node.silentMarks = 0 ∧ s.node.listenClaim = false)

/-! ### Terms of the statements about single commands -/

/-- The node listens to a frame: RESET is not held and the line condition is FRAME (R6, R77). -/
abbrev State.Hearing (s : State) : Prop := s.node.resetHeld = false ∧ s.line.cond = .frame

/-- The node answers in these states (R156). -/
abbrev NodeState.Answers (st : NodeState) : Prop := st = .setup ∨ st = .listen ∨ st = .active

/-- The node makes snapshot closes in these states (R52). -/
abbrev NodeState.Closes (st : NodeState) : Prop := st = .active ∨ st = .mute ∨ st = .barred

/-- The octets end a valid single-target REQUEST to this sampling node, which answers in its state and whose slot is
EMPTY (R32, R156, R162). -/
abbrev State.HearsRequest (s : State) (octets : List Byte) (r : Request) : Prop :=
  s.Hearing ∧ requestOf octets = some r ∧ s.sampling = true ∧ r.target = s.own ∧ s.node.state.Answers ∧
  s.line.slot = .empty

/-- The octets end a valid broadcast REQUEST (R26, R156). -/
abbrev State.HearsBroadcast (s : State) (octets : List Byte) (r : Request) : Prop :=
  s.Hearing ∧ requestOf octets = some r ∧ r.target = 63#6

/-- The line when a frame has ended with the answer window left as `window`: GAP, the released run counted from that end
(R1, R5, R9). -/
def Line.ended (l : Line) (window : Bool) : Line :=
  { l with cond := .gap, lineHeld := false, holdRun := 0, releasedRun := 0, receiving := false, window := window }

/-- The state in which `answer` waits in the slot, one frame gap before it starts, with `effect` awaited and the answer
window open (R9, R13, R163). -/
def State.answering (s : State) (answer : Answer) (effect : Awaited) : State :=
  { s with
    line := { s.line.ended true with slot := .waiting (.answer answer) }
    handler := { s.handler with awaited := effect } }

/-- The line at a recognized mark with this in the slot (R5, R11). -/
def Line.atMark (l : Line) (slot : Slot) : Line :=
  { l with cond := .marked, lineHeld := true, holdRun := 16, releasedRun := 0, receiving := false, window := false,
           slot := slot }

/-- The round controller after stage 3 of an epoch instant with this new tag (R45). -/
def Round.atInstant (x : Round) (period : Nat) (tag : BitVec 8) : Round :=
  { x with epochTimer := some period, owed := none, roundCount := x.roundCount + 1, tag := tag, phase := .mark,
           epochOut := true }

/-- What the sampler hands over at an instant: OVERRUN when an operation is in flight, else the finished reading,
NOT-SAMPLED without one (R47, R92). -/
def Sampler.posted (x : Sampler) : Reading :=
  if x.stage = .idle then x.finished.getD .notSampled else .overrun

/-- The line when the node has begun a frame or a mark hold of its own in OPEN: FRAME (R5, R8). -/
def Line.begun (l : Line) : Line :=
  { l with cond := .frame, lineHeld := true, holdRun := 0, releasedRun := 0, receiving := true }

end Sys2Proof.Machine
end

