-- ==== Sys2Proof/WellFormed.lean ====
section
/-! DEFINITION. When a command's operands are those of its row: the octets are a valid frame of the row's kind and code, and the counts are possible. An ill-formed command is answered all the same, by no change (log 5). -/

namespace Sys2Proof

open Machine

/-- The octets are a valid REQUEST that meets `accepts`. -/
def requestWf (octets : List Byte) (accepts : Request → Bool) : Bool :=
  match requestOf octets with
  | some r => accepts r
  | none => false

/-- The octets are a valid POST. -/
def postWf (octets : List Byte) : Bool :=
  match judge octets with
  | .valid (.post _) => true
  | .valid (.answer _) => false
  | .valid (.request _) => false
  | .malformed _ => false
  | .incomplete => false

/-- The octets are a valid ANSWER. -/
def answerWf (octets : List Byte) : Bool :=
  match judge octets with
  | .valid (.answer _) => true
  | .valid (.post _) => false
  | .valid (.request _) => false
  | .malformed _ => false
  | .incomplete => false

/-- The report shows a condition of R29. -/
def reportWf (report : MalformedReport) : Bool :=
  match report with
  | .shape cell =>
    match readCell cell with
    | .releasedAtQ1 => true
    | .heldAtQ4 => true
    | .bit _ => false
  | .octets octets =>
    match judge octets with
    | .malformed _ => true
    | .valid _ => false
    | .incomplete => false

/-- The command's operands are those of its row of the table. -/
def Instr.wf : Instr → Bool
  | .resetAsserted => true
  | .resetRelease _ _ => true
  | .startOpportunity _ => true
  | .opportunityMissed => true
  | .firstOctetComplete _ => true
  | .malformedFrame report => reportWf report
  | .postReceived octets => postWf octets
  | .answerReceived octets => answerWf octets
  | .answerWindowTimeout => true
  | .readStatus octets => requestWf octets fun r => r.code == RequestCode.readStatus.octet
  | .readEntry octets => requestWf octets fun r => r.code == RequestCode.readEntry.octet
  | .readGroup octets => requestWf octets fun r => r.code == RequestCode.readGroup.octet
  | .readEvents octets => requestWf octets fun r => r.code == RequestCode.readEvents.octet
  | .ackEvents octets => requestWf octets fun r => r.code == RequestCode.ackEvents.octet
  | .forget octets => requestWf octets fun r => r.code == RequestCode.forget.octet
  | .quiet octets => requestWf octets fun r => r.code == RequestCode.quiet.octet
  | .restart octets => requestWf octets fun r => r.code == RequestCode.restart.octet
  | .configurePlan octets => requestWf octets fun r => r.code == RequestCode.configurePlan.octet
  | .configureCal octets => requestWf octets fun r => r.code == RequestCode.configureCal.octet
  | .configureLimits octets => requestWf octets fun r => r.code == RequestCode.configureLimits.octet
  | .closeSetup octets => requestWf octets fun r => r.code == RequestCode.closeSetup.octet
  | .unknownRequestCode octets => requestWf octets fun r => !knownCode r.code
  | .txSuccess => true
  | .arbitrationLoss => true
  | .collision _ => true
  | .driveFailure _ => true
  | .setupTimerExpiry => true
  | .epochTimerExpiry => true
  | .listenTimerExpiry => true
  | .longHold => true
  | .quietForPhaseGap _ => true
  | .markHoldEnd => true
  | .markRecognized _ => true
  | .markEnd => true
  | .lineStuck => true
  | .exciteEnd => true
  | .settleEnd => true
  | .sensorEdge _ => true
  | .firstEdgeTimeout => true
  | .countWindowEnd => true
  | .auxEdge _ clocks => decide (1 ≤ clocks)
  | .auxEdgeTimeout => true
  | .frameStart => true
  | .longHoldReleased => true
  | .resyncHoldReleased => true
  | .requestOtherTarget octets => requestWf octets fun r => !r.broadcast
  | .requestIgnored octets => requestWf octets fun _ => true

end Sys2Proof
end

