-- ==== Sys2Proof/Certificates/Slice0/Obligations.lean ====
section
/-! DEFINITION. The statements for the provers. -/

section Statements

open Sys2Proof Sys2Proof.Machine

/-! ### The queue -/

/-- A step takes the front command of the queue and carries it out on the rest of the queue; on an empty queue it idles
(the idling is the model's choice, log 2). -/
def Obligations.StepRunsFrontCommand : Prop :=
  (∀ (c : Instr) (rest : List Instr) (s : State), s.pending = c :: rest →
    step s = exec c { s with pending := rest }) ∧
  ∀ s : State, s.pending = [] → step s = .next s

/-- Every command answers a next state, and no command touches the queue. That no command stops the node is deduced from a
manual that names no event that does (log 19); that a command whose conditions the state does not meet changes nothing
(log 5), and that commands wait in one queue which only the step shortens (log 15), are the model's choices. -/
def Obligations.EveryCommandAnswersNext : Prop :=
  ∀ (c : Instr) (s : State), ∃ t, exec c s = .next t ∧ t.pending = s.pending

/-! ### Reset (section 4.9 and the reset tables of each chapter) -/

/-- RESET_RELEASE: the straps are latched and every block takes its power-on values.
That the level of the AUX pin stays as it was is the model's choice (log 10); the run lengths start at 0 (log 3). -/
def Obligations.ResetReleaseTakesPowerOnValues : Prop :=
  ∀ (straps : Straps) (held : Bool) (s : State), ∃ t, exec (.resetRelease straps held) s = .next t ∧
    t.node = { resetHeld := false, state := .setup, straps := straps, setupTimer := some 32000000,
               adoption := .none, silentMarks := 0, listenClaim := false, dupSuspect := false,
               collisionNote := false } ∧
    t.line = { cond := .resync, lineHeld := held, holdRun := 0, releasedRun := 0, receiving := false,
               window := false, fault := false, slot := .empty, txRun := 0, rxErrors := 0, markHold := false } ∧
    t.round = { epochTimer := none, listenTimer := none, roundCount := 0, tag := 0, phase := .quietWait,
                owed := none, epochOut := false, muteCount := 0, marksOriginated := 0, marksDeferred := 0,
                postsLost := 0 } ∧
    t.sampler.stage = .idle ∧ t.sampler.finished = none ∧ t.sampler.lastOwn = .good ∧ t.sampler.overruns = 0 ∧
    t.aux = { stage := .idle, pin := s.aux.pin, edgeTimer := none, started := false, edgeCount := 0,
              openHigh := 0, high := 0, total := 0, longest := 0, shortest := 0, result := none } ∧
    (∀ i : Fin 62, t.table.entries[i] =
      { state := .vacant, group := 0, lastTag := 0, lastQuality := .good, lastValue := none, lastAux := none,
        alarm := false, missRun := 0, heard := 0, misses := 0, lastHeard := 0 }) ∧
    t.table.intake = [] ∧ t.table.misaligned = 0 ∧
    (∀ g : Fin 8, t.groups.cells[g] =
      { record := { expected := 0, contributors := 0, complete := false, sum := 0, extremes := none, lastClose := 0 }
        limit := .normal
        run := 0 }) ∧
    t.groups.alarm = false ∧
    t.handler.store.plan = { bandLow := 400, bandHigh := 6000, pluck := false, periods := 2, sweep := 50,
                             settle := 20, tolerance := 2000, lapse := 3 } ∧
    t.handler.store.cal = { zero := 0, gain := 4096 } ∧
    (∀ g : Fin 8, (t.handler.store.limit g).watched = false ∧ (t.handler.store.limit g).basis = .sum ∧
      (t.handler.store.limit g).rounds = 0 ∧ (t.handler.store.limit g).high.toInt = 2147483647 ∧
      (t.handler.store.limit g).low.toInt = -2147483648 ∧ (t.handler.store.limit g).hysteresis = 0) ∧
    t.handler.digest = check t.handler.store.image ∧ t.handler.awaited = .none ∧
    t.log.records = [] ∧ t.log.dropped = 0 ∧ t.pending = s.pending

/-- RESET_ASSERTED: nothing is driven, ALARM and EPOCH are released, and until the release of RESET no command changes the
node (the level of the AUX pin is not the node's; the values held meanwhile are the model's choice, log 11). -/
def Obligations.ResetHeldTakesNothing : Prop :=
  ∀ s : State, ∃ t, exec .resetAsserted s = .next t ∧ t.node.resetHeld = true ∧
    t.drivesLine = false ∧ t.drivesCoil = false ∧ t.alarmPin = false ∧ t.epochPin = false ∧
    t.aux.stage = .idle ∧ t.node.setupTimer = none ∧ t.log.records = [] ∧ t.handler.awaited = .none ∧
    ∀ c : Instr, (∀ straps held, c ≠ .resetRelease straps held) → (∀ rising clocks, c ≠ .auxEdge rising clocks) →
      exec c t = .next t

/-! ### The line code (sections 1.2 and 1.5) -/

/-- A bit sent in a cell is read back from it, two senders show a 0 when either sends one, and a sender reads a disagreement
exactly where it sends a 1 and the other a 0. So of two frames that start together and first differ in some octet, the one
that is higher there stops in the first cell where they differ, with arbitration loss in the first octet and collision after
it; the line carries the other whole, which ends in success, and two identical frames both do. A disturbed cell ends an
attempt so: a Q1 that reads released, or a data quarter that does where the node holds it, is a drive failure; a data quarter
that reads held where the node releases it is an arbitration loss in the first octet and a collision after it, also when the
hold runs into Q4 and the line is released before a mark; a hold at Q4 with no disagreement is, at that release, a drive
failure. A mark recognized first aborts the attempt instead (MARK_RECOGNIZED). -/
def Obligations.HeldQuartersDecideArbitration : Prop :=
  (∀ a b : Bool, readCell (cellOf a) = .bit a ∧
     readCell (superpose (cellOf a) (cellOf b)) = .bit (a && b) ∧
     (readBack (cellOf a) (superpose (cellOf a) (cellOf b)) = none ↔ (a = true → b = true)) ∧
     (readBack (cellOf a) (superpose (cellOf a) (cellOf b)) ≠ none →
       readBack (cellOf a) (superpose (cellOf a) (cellOf b)) = some .readsHeld)) ∧
  (∀ (same : List Byte) (x y : Byte) (as bs : List Byte), x.toNat < y.toNat → ∃ n : Nat,
     8 * same.length ≤ n ∧ n < 8 * same.length + 8 ∧
     let low := frameCells (same ++ x :: as)
     let high := frameCells (same ++ y :: bs)
     let line := List.zipWith superpose (low.take (n + 1)) (high.take (n + 1)) ++ low.drop (n + 1)
     low.take n = high.take n ∧ line = low ∧
     attemptOutcome 0 ((same ++ y :: bs).flatMap octetBits) line =
       (if same = [] then .arbitrationLoss else .collision) ∧
     attemptOutcome 0 ((same ++ x :: as).flatMap octetBits) line = .success) ∧
  (∀ octets : List Byte,
     let line := List.zipWith superpose (frameCells octets) (frameCells octets)
     line = frameCells octets ∧ attemptOutcome 0 (octets.flatMap octetBits) line = .success) ∧
  ∀ (before after : List Bool) (b : Bool) (c : CellLevels) (later : List CellLevels),
     let outcome := attemptOutcome 0 (before ++ b :: after) (before.map cellOf ++ c :: later)
     (c.q1 = false → outcome = .driveFailure) ∧
     (c.q1 = true → b = false → c.q2 = false ∨ c.q3 = false → outcome = .driveFailure) ∧
     (c.q1 = true → b = true → c.q2 = true ∨ c.q3 = true →
       outcome = if before.length < 8 then .arbitrationLoss else .collision) ∧
     (c = { cellOf b with q4 := true } → outcome = .driveFailure)

/-! ### Frames (sections 2.1 to 2.6) -/

/-- The check: preset, generator, bit order, the manual's example, how it is sent, and the two equal methods of judging it
(R23). -/
def Obligations.CheckOfR23 : Prop :=
  check [] = 65535#16 ∧
  (∀ (r : BitVec 16) (b : Bool),
    checkBit r b = if r.msb = b then r <<< 1 else (r <<< 1) ^^^ (1#16 <<< 12 ||| 1#16 <<< 5 ||| 1#16)) ∧
  (∀ (octets : List Byte) (o : Byte),
    check (octets ++ [o]) =
      [o.getLsbD 7, o.getLsbD 6, o.getLsbD 5, o.getLsbD 4, o.getLsbD 3, o.getLsbD 2, o.getLsbD 1, o.getLsbD 0].foldl
        checkBit (check octets)) ∧
  check [49, 50, 51, 52, 53, 54, 55, 56, 57] = 10673#16 ∧
  withCheck [49, 50, 51, 52, 53, 54, 55, 56, 57] = [49, 50, 51, 52, 53, 54, 55, 56, 57, 41, 177] ∧
  (∀ body : List Byte, ∃ hi lo : Byte, withCheck body = body ++ [hi, lo] ∧ hi ++ lo = check body) ∧
  ∀ (body : List Byte) (hi lo : Byte), check (body ++ [hi, lo]) = 0#16 ↔ hi ++ lo = check body

/-- DECODE AND ENCODE AGREE: every frame the node or a station can send, of any kind and with any field values its kind
admits, is judged valid with every field as it was sent, whatever follows its declared length.
THE JUDGMENT OF EVERY LIST OF OCTETS, by the first condition of section 2.6 that it meets: kind code 3 or a POST of source 0
or 63 at octet 1, a REQUEST to target 0 at octet 2, quality 7 at octet 3, an argument length over 6 or a payload length over
24 at octet 4, and at the declared length a check that is not that of the octets before it. A list that reaches its declared
length and meets none is valid, with the fields its octets hold; one that does not reach it and meets none is incomplete. -/
def Obligations.SentFrameIsReceivedWhole : Prop :=
  (∀ (p : Post) (rest : List Byte), p.source ≠ 0#6 → p.source ≠ 63#6 →
    judge (p.octets ++ rest) = .valid (.post p)) ∧
  (∀ (r : Request) (rest : List Byte), r.target ≠ 0#6 → r.args.length ≤ 6 →
    judge (r.octets ++ rest) = .valid (.request r)) ∧
  (∀ (a : Answer) (rest : List Byte), a.payload.length ≤ 24 → judge (a.octets ++ rest) = .valid (.answer a)) ∧
  judge [] = .incomplete ∧
  (∀ (o1 : Byte) (rest : List Byte),
    (192 ≤ o1.toNat → judge (o1 :: rest) = .malformed .kindCode) ∧
    (o1.toNat = 0 ∨ o1.toNat = 63 → judge (o1 :: rest) = .malformed .postSource)) ∧
  (∀ o1 : Byte, 1 ≤ o1.toNat → o1.toNat ≤ 62 →
    (∀ rest : List Byte, rest.length < 2 → judge (o1 :: rest) = .incomplete) ∧
    ∀ (tag flags : Byte) (tail : List Byte),
      let quality := flags.toNat / 4 % 8
      let content := (if quality < 4 then 3 else 0) + (if flags.toNat / 2 % 2 = 1 then 2 else 0)
      let judged := judge (o1 :: tag :: flags :: tail)
      (quality = 7 → judged = .malformed .postQuality) ∧
      (quality ≠ 7 → tail.length < content + 2 → judged = .incomplete) ∧
      ∀ (fields rest : List Byte) (hi lo : Byte), quality ≠ 7 → fields.length = content →
        tail = fields ++ hi :: lo :: rest →
        let body := o1 :: tag :: flags :: fields
        (hi ++ lo ≠ check body → judged = .malformed .checkMismatch) ∧
        (hi ++ lo = check body → ∃ p : Post, judged = .valid (.post p) ∧ p.octets = body ++ [hi, lo])) ∧
  (∀ o1 : Byte, 64 ≤ o1.toNat → o1.toNat < 128 →
    (∀ rest : List Byte, rest.length < 3 → judge (o1 :: rest) = .incomplete) ∧
    ∀ (code status len : Byte) (tail : List Byte),
      let judged := judge (o1 :: code :: status :: len :: tail)
      (24 < len.toNat → judged = .malformed .payloadLength) ∧
      (len.toNat ≤ 24 → tail.length < len.toNat + 2 → judged = .incomplete) ∧
      ∀ (payload rest : List Byte) (hi lo : Byte), len.toNat ≤ 24 → payload.length = len.toNat →
        tail = payload ++ hi :: lo :: rest →
        let body := o1 :: code :: status :: len :: payload
        (hi ++ lo ≠ check body → judged = .malformed .checkMismatch) ∧
        (hi ++ lo = check body → judged = .valid (.answer ⟨o1.setWidth 6, code, status, payload⟩))) ∧
  ∀ o1 : Byte, 128 ≤ o1.toNat → o1.toNat < 192 →
    judge [o1] = .incomplete ∧
    ∀ o2 : Byte,
      (o2.toNat % 64 = 0 → ∀ rest : List Byte, judge (o1 :: o2 :: rest) = .malformed .requestTarget) ∧
      (o2.toNat % 64 ≠ 0 →
        (∀ rest : List Byte, rest.length < 2 → judge (o1 :: o2 :: rest) = .incomplete) ∧
        ∀ (code len : Byte) (tail : List Byte),
          let judged := judge (o1 :: o2 :: code :: len :: tail)
          (6 < len.toNat → judged = .malformed .argumentLength) ∧
          (len.toNat ≤ 6 → tail.length < len.toNat + 2 → judged = .incomplete) ∧
          ∀ (args rest : List Byte) (hi lo : Byte), len.toNat ≤ 6 → args.length = len.toNat →
            tail = args ++ hi :: lo :: rest →
            let body := o1 :: o2 :: code :: len :: args
            (hi ++ lo ≠ check body → judged = .malformed .checkMismatch) ∧
            (hi ++ lo = check body → judged = .valid (.request ⟨o1.setWidth 6, o2.setWidth 6, code, args⟩)))

/-! ### Commands of the line -/

/-- FRAME_START, LONG_HOLD, LONG_HOLD_RELEASED, RESYNC_HOLD_RELEASED and ANSWER_WINDOW_TIMEOUT move the line condition as
section 1.3 says and change nothing else (the run lengths stand at the last threshold reached, log 3). A frame of the node
that is SENDING is driven in FRAME; at LONG_HOLD it stays in the slot, its outcome waits, and the node drives nothing but
a mark hold of its own (section 1.5). That `drivesLine` in FRAME holds exactly while a mark is held or a frame is SENDING is
the model's choice (DESIGN CHOICE, log 13): the model has no quarters, so it reads true also within the cell of a
disagreement, where the node has stopped driving. -/
def Obligations.HoldsAndReleasesMoveLineCondition : Prop :=
  ∀ s : State, s.node.resetHeld = false →
    (s.line.cond = .opened ∨ s.line.cond = .gap → s.line.slot.hasAnswer = false →
      exec .frameStart s = .next { s with line := s.line.begun }) ∧
    (s.line.cond = .frame ∨ s.line.cond = .resync →
      let held : State := { s with line :=
        { s.line with cond := .longHold, lineHeld := true, holdRun := 7, releasedRun := 0 } }
      exec .longHold s = .next held ∧ held.drivesLine = s.line.markHold) ∧
    (s.line.cond = .frame → (s.drivesLine = true ↔ s.line.markHold = true ∨ ∃ f, s.line.slot = .sending f)) ∧
    (s.line.cond = .longHold → s.line.receiving = false →
      exec .longHoldReleased s = .next { s with line :=
        { s.line with cond := .resync, lineHeld := false, holdRun := 0, releasedRun := 0 } }) ∧
    (s.line.cond = .resync →
      exec .resyncHoldReleased s = .next { s with line :=
        { s.line with lineHeld := false, holdRun := 0, releasedRun := 0 } }) ∧
    (s.line.cond = .opened → s.line.window = true →
      exec .answerWindowTimeout s = .next { s with line := { s.line with window := false, releasedRun := 80 } })

/-- START_OPPORTUNITY: OPEN begins at 6 cells of release, and a WAITING frame of the slot becomes SENDING; with a hold no
older than a quarter cell at that moment a WAITING frame starts on it, and without one the hold begins a frame in GAP and
none in RESYNC (the aligned form is deduced, log 8). -/
def Obligations.StartOpportunityStartsWaitingFrame : Prop :=
  ∀ s : State, s.node.resetHeld = false → s.line.cond = .gap ∨ s.line.cond = .resync →
    (∀ (f : TxFrame) (aligned : Bool), s.line.slot = .waiting f →
      exec (.startOpportunity aligned) s = .next { s with line := { s.line.begun with slot := .sending f } }) ∧
    ((∀ f : TxFrame, s.line.slot ≠ .waiting f) →
      exec (.startOpportunity false) s = .next { s with line :=
        { s.line with cond := .opened, lineHeld := false, holdRun := 0, releasedRun := 48 } } ∧
      exec (.startOpportunity true) s =
        .next { s with line := if s.line.cond = .gap then s.line.begun else s.line })

/-- MARK_END and MARK_HOLD_END: the release after a mark begins GAP, releases EPOCH and moves MARK to POSTING; the end of
the node's own hold only ends that hold.
The run lengths start again at 0 (log 3). -/
def Obligations.MarkEndOpensPosting : Prop :=
  ∀ s : State, s.node.resetHeld = false →
    (s.line.cond = .marked →
      exec .markEnd s = .next { s with
        line := { s.line with cond := .gap, lineHeld := false, holdRun := 0, releasedRun := 0 }
        round := { s.round with epochOut := false,
                                phase := if s.round.phase = .mark then .posting else s.round.phase } }) ∧
    exec .markHoldEnd s = .next { s with line := { s.line with markHold := false } }

/-- LINE_STUCK at 64 cells of a mark sets the line-fault flag, with a LINE-STUCK record when it was clear; the flag is
cleared with LINE-RELEASED at the phase gap (section 1.4).
The run lengths stand at the last threshold reached (log 3); the order operand is the model's (log 6). -/
def Obligations.StuckLineIsFlaggedAndReleased : Prop :=
  ∀ s : State, s.node.resetHeld = false →
    (s.line.cond = .marked → s.line.fault = false →
      exec .lineStuck s = .next { s with
        line := { s.line with holdRun := 512, fault := true }
        log := s.log.offer { kind := .lineStuck, roundCount := s.round.roundCount, station := 0, detail := 0 } }) ∧
    (s.line.cond = .marked → s.line.fault = true →
      exec .lineStuck s = .next { s with line := { s.line with holdRun := 512 } }) ∧
    (∀ order : QuietOrder, s.line.cond = .opened → s.line.window = false → s.line.fault = true →
      s.round.owed = none → s.round.phase ≠ .posting →
      exec (.quietForPhaseGap order) s = .next { s with
        line := { s.line with releasedRun := 96, fault := false }
        log := s.log.offer { kind := .lineReleased, roundCount := s.round.roundCount, station := 0, detail := 0 } })

/-- QUIET_FOR_PHASE_GAP originates an owed mark, in any order of its three reports: a mark hold begins, both counters rise,
MARK-DEFERRED carries the owed cause, and the flag is cleared (section 3.2).
The order operand is the model's (log 6), the condition FRAME of a hold from OPEN deduced (log 12). -/
def Obligations.QuietOriginatesOwedMark : Prop :=
  ∀ (s : State) (cause : OwedCause) (order : QuietOrder), s.node.resetHeld = false → s.line.cond = .opened →
    s.line.window = false → s.line.fault = false → s.round.phase ≠ .posting → s.round.owed = some cause →
    exec (.quietForPhaseGap order) s = .next { s with
      line := { s.line.begun with markHold := true }
      round := { s.round with owed := none, marksOriginated := satInc s.round.marksOriginated,
                              marksDeferred := satInc s.round.marksDeferred }
      log := s.log.offer { kind := .markDeferred, roundCount := s.round.roundCount, station := 0,
                           detail := match cause with
                             | .window => 1
                             | .marked => 2
                             | .frameOrGap => 3
                             | .resync => 4
                             | .opened => 5 } }

/-- MALFORMED_FRAME, and LONG_HOLD_RELEASED of a frame's long hold: the frame is counted, its end closes an answer window,
and the line condition becomes GAP after a check mismatch and RESYNC after any other condition (which octets are malformed,
and with which cause: SentFrameIsReceivedWhole). While the node holds a mark
the hold goes on and no error is recorded; that this keeps every frame judged in that time from the count is deduced
(log 23).
That the frame a long hold grew out of is judged once, by whichever of the two commands comes, is deduced (log 7); the run
lengths stand at the last threshold reached (log 3). -/
def Obligations.MalformedFrameIsCountedOnce : Prop :=
  ∀ s : State, s.node.resetHeld = false → s.line.receiving = true →
    let errors := if s.line.markHold then s.line.rxErrors else satInc s.line.rxErrors
    (∀ (octets : List Byte) (cause : MalformedCause), s.line.cond = .frame → judge octets = .malformed cause →
      exec (.malformedFrame (.octets octets)) s = .next { s with line :=
        { s.line with cond := if cause = .checkMismatch then .gap else .resync,
                      lineHeld := if cause = .checkMismatch then false else s.line.lineHeld,
                      holdRun := 0, releasedRun := 0, receiving := false, window := false,
                      rxErrors := errors } }) ∧
    (∀ cell : CellLevels, (cell.q1 = false ∧ s.line.cond = .frame) ∨
        (cell.q1 = true ∧ cell.q4 = true ∧ s.line.cond = .longHold) →
      exec (.malformedFrame (.shape cell)) s = .next { s with line :=
        { s.line.ended false with cond := .resync, rxErrors := errors } }) ∧
    (s.line.cond = .longHold →
      exec .longHoldReleased s = .next { s with line :=
        { s.line.ended false with cond := .resync, rxErrors := errors } })

/-- FIRST_OCTET_COMPLETE closes nothing outside POSTING, and a POST or an invalid first octet closes nothing anywhere; an
ANSWER or REQUEST closes POSTING, which in LISTEN only changes the phase (section 3.5). -/
def Obligations.FirstOctetClosesPostingOnly : Prop :=
  ∀ (s : State) (octet : Byte), s.Hearing →
    (s.round.phase ≠ .posting ∨ octet.toNat < 64 ∨ 192 ≤ octet.toNat →
      exec (.firstOctetComplete octet) s = .next s) ∧
    (s.round.phase = .posting → 64 ≤ octet.toNat → octet.toNat < 192 → s.node.state = .listen →
      s.line.slot.hasPost = false →
      exec (.firstOctetComplete octet) s = .next { s with round := { s.round with phase := .request } }) ∧
    (s.round.phase = .posting → 64 ≤ octet.toNat → octet.toNat < 192 →
      ∃ t, exec (.firstOctetComplete octet) s = .next t ∧ t.round.phase = .request ∧ t.line = { s.line with
        slot := if s.line.slot.hasPost then .empty else s.line.slot })

/-- POST_RECEIVED: a valid POST joins the intake list in POSTING, at the end or in the place of an earlier post of its source,
and is discarded in any other phase; in LISTEN the first one taken sets the epoch tag to its tag plus 1 (sections 4.4
and 7.2). -/
def Obligations.PostJoinsIntakeInPosting : Prop :=
  (∀ (s : State) (octets : List Byte) (p : Post), s.Hearing → judge octets = .valid (.post p) →
     (s.round.phase ≠ .posting →
       exec (.postReceived octets) s = .next { s with line := s.line.ended false }) ∧
     (s.round.phase = .posting → s.node.state ≠ .listen ∨ s.node.adoption = .posted →
       exec (.postReceived octets) s = .next { s with
         line := s.line.ended false
         table := { s.table with intake := intakePost p s.table.intake } }) ∧
     (s.round.phase = .posting → s.node.state = .listen → s.node.adoption ≠ .posted →
       exec (.postReceived octets) s = .next { s with
         line := s.line.ended false
         table := { s.table with intake := intakePost p s.table.intake }
         node := { s.node with adoption := .posted }
         round := { s.round with tag := p.tag + 1 } })) ∧
  (∀ (p : Post) (list : List Post), (list.map (·.source)).Nodup →
     (p.source ∉ list.map (·.source) → intakePost p list = list ++ [p]) ∧
     (p.source ∈ list.map (·.source) →
       intakePost p list = list.map fun q => if q.source = p.source then p else q))

/-- ANSWER_RECEIVED, REQUEST_OTHER_TARGET and REQUEST_IGNORED are taken by the line alone: the frame ends, and a
single-target REQUEST opens an answer window (sections 1.3, 2.5, 2.6 and 9.1). -/
def Obligations.FramesForOthersOnlyEndOnTheLine : Prop :=
  ∀ (s : State) (octets : List Byte), s.Hearing →
    (∀ a : Answer, judge octets = .valid (.answer a) →
      exec (.answerReceived octets) s = .next { s with line := s.line.ended false }) ∧
    (∀ r : Request, requestOf octets = some r → r.target ≠ 63#6 → s.sampling = false ∨ r.target ≠ s.own →
      exec (.requestOtherTarget octets) s = .next { s with line := s.line.ended true }) ∧
    (∀ r : Request, requestOf octets = some r → r.target = 63#6 ∨ (s.sampling = true ∧ r.target = s.own) →
      s.node.state = .barred ∨ (s.node.state = .mute ∧ r.code ≠ 19#8) ∨
        (s.node.state ≠ .mute ∧ r.target = 63#6 ∧ r.code ≠ 19#8 ∧ r.code ≠ 36#8) →
      exec (.requestIgnored octets) s = .next { s with line := s.line.ended (decide (r.target ≠ 63#6)) })

/-! ### The epoch instant (section 3.3) -/

/-- MARK_RECOGNIZED in an ACTIVE sampling node with no posting phase running (one that runs is closed first:
SnapshotCloseBringsTablesUpToDate; an ANSWER in the slot: AnswerEndCarriesOutAwaitedEffect): the round advances, the intake list is
emptied, both measuring blocks hand over and start, and the pending post waits in the slot; nothing else changes.
The copy of plan and calibration and the cleared counters inside the sampler are the model's layout (log 14). -/
def Obligations.ActiveInstantPostsAndSamples : Prop :=
  ∀ (s : State) (first : TakenFirst), s.node.resetHeld = false → s.line.cond = .longHold →
    s.node.state = .active → s.sampling = true → s.round.phase ≠ .posting → s.line.slot.hasAnswer = false →
    exec (.markRecognized first) s = .next { s with
      line := s.line.atMark (.waiting (.post
        { source := s.own, tag := s.round.tag, group := s.node.straps.group, reading := s.sampler.posted,
          aux := if s.node.straps.auxEnabled = true ∧ s.aux.stage = .idle then s.aux.result.map AuxResult.field
                 else none,
          alarm := s.groups.alarm }))
      round := s.round.atInstant s.period (s.round.tag + 1)
      table := { s.table with intake := [] }
      sampler :=
        { stage := .excite
          work := { timer := some (exciteClocks s.handler.store.plan), started := false, edges := 0, c1 := 0, c2 := 0,
                    plan := s.handler.store.plan, cal := s.handler.store.cal }
          finished := none
          lastOwn := s.sampler.lastOwn
          overruns := if s.sampler.stage = .idle then s.sampler.overruns else satInc s.sampler.overruns }
      aux := if s.node.straps.auxEnabled then
          { stage := .measuring, pin := s.aux.pin, edgeTimer := some 400000, started := false, edgeCount := 0,
            openHigh := 0, high := 0, total := 0, longest := 0, shortest := 0, result := none }
        else s.aux
      log := match s.sampler.stage with
        | .idle => s.log
        | .excite => s.log.offer ⟨.sampleOverrun, s.round.roundCount + 1, s.own, 1⟩
        | .settle => s.log.offer ⟨.sampleOverrun, s.round.roundCount + 1, s.own, 2⟩
        | .count => s.log.offer ⟨.sampleOverrun, s.round.roundCount + 1, s.own, 3⟩ }

/-- MARK_RECOGNIZED in BARRED or in an ACTIVE listener takes the instant without a post and without a measurement; in SETUP
the controller takes no instant at all. -/
def Obligations.InstantWithoutSampling : Prop :=
  ∀ (s : State) (first : TakenFirst), s.node.resetHeld = false → s.line.cond = .longHold →
    s.line.slot.hasAnswer = false →
    (s.node.state = .barred ∨ (s.node.state = .active ∧ s.sampling = false) → s.round.phase ≠ .posting →
      exec (.markRecognized first) s = .next { s with
        line := s.line.atMark .empty
        round := s.round.atInstant s.period (s.round.tag + 1)
        table := { s.table with intake := [] }
        sampler := { s.sampler with finished := none }
        aux := { s.aux with result := none } }) ∧
    (s.node.state = .setup → exec (.markRecognized first) s = .next { s with line := s.line.atMark s.line.slot })

/-- MARK_RECOGNIZED in LISTEN: with a tag adopted or the listen claim made the node enters ACTIVE, at the adopted tag plus 1
or at tag 0; else the mark is counted, and the second silent one takes tag 0 (section 4.4). -/
def Obligations.ListenInstantJoinsTheLine : Prop :=
  ∀ (s : State) (first : TakenFirst), s.node.resetHeld = false → s.line.cond = .longHold →
    s.node.state = .listen → s.line.slot = .empty → ∃ t, exec (.markRecognized first) s = .next t ∧
    t.round.roundCount = s.round.roundCount + 1 ∧ t.round.phase = .mark ∧ t.round.epochOut = true ∧
    t.round.epochTimer = some s.period ∧ t.round.owed = none ∧ t.table = { s.table with intake := [] } ∧
    t.groups = s.groups ∧ t.handler = s.handler ∧
    (s.node.adoption ≠ .none →
      t.node = { s.node with state := .active, adoption := .none, silentMarks := 0, listenClaim := false } ∧
      t.round.tag = s.round.tag + 1 ∧ t.round.listenTimer = none) ∧
    (s.node.adoption = .none → s.node.listenClaim = true →
      t.node = { s.node with state := .active, silentMarks := 0, listenClaim := false } ∧
      t.round.tag = 0 ∧ t.round.listenTimer = none) ∧
    (s.node.adoption ≠ .none ∨ s.node.listenClaim = true → s.sampling = true → s.sampler.stage = .idle →
      s.sampler.finished = none → s.aux.stage = .idle → s.aux.result = none →
      t.line = s.line.atMark (.waiting (.post
        { source := s.own, tag := t.round.tag - 1, group := s.node.straps.group, reading := .notSampled, aux := none,
          alarm := s.groups.alarm })) ∧
      t.sampler.stage = .excite ∧ t.log = s.log) ∧
    (s.node.adoption = .none → s.node.listenClaim = false → s.node.silentMarks = 0 →
      t.node = { s.node with silentMarks := 1 } ∧ t.round.tag = s.round.tag ∧ t.round.listenTimer = s.listenLoad ∧
      t.line = s.line.atMark .empty ∧ t.log = s.log) ∧
    (s.node.adoption = .none → s.node.listenClaim = false → s.node.silentMarks = 1 →
      t.node = { s.node with silentMarks := 2, adoption := .silent } ∧ t.round.tag = 0 ∧
      t.round.listenTimer = s.listenLoad ∧ t.line = s.line.atMark .empty ∧ t.log = s.log)

/-- MARK_RECOGNIZED in MUTE counts a round down without a post; at 0 the node is ACTIVE again and posts the reading it took
while muted (section 4.6). -/
def Obligations.MuteInstantCountsDown : Prop :=
  ∀ (s : State) (first : TakenFirst), s.node.resetHeld = false → s.line.cond = .longHold →
    s.node.state = .mute → s.sampling = true → s.round.phase ≠ .posting → s.line.slot = .empty →
    ∃ t, exec (.markRecognized first) s = .next t ∧ t.round.roundCount = s.round.roundCount + 1 ∧
    t.round.tag = s.round.tag + 1 ∧ t.sampler.stage = .excite ∧ t.sampler.finished = none ∧
    t.table = { s.table with intake := [] } ∧
    (2 ≤ s.round.muteCount.toNat →
      t.node = s.node ∧ t.round.muteCount = s.round.muteCount - 1 ∧ t.line = s.line.atMark .empty) ∧
    (s.round.muteCount = 1 → t.node.state = .active ∧ t.round.muteCount = 0 ∧
      ∃ p : Post, t.line.slot = .waiting (.post p) ∧ p.source = s.own ∧ p.tag = s.round.tag ∧
        p.reading = s.sampler.posted)

/-! ### The posting close and the snapshot close (sections 3.5, 7.3, 7.4 and 8.2 to 8.6) -/

/-- A POST still in the slot at a posting close is discarded, counted and recorded before anything else of the close: with
detail 1 at a first octet, and with detail 2 and the round count of the ending round at a mark. -/
def Obligations.UnsentPostIsLost : Prop :=
  ∀ (s : State) (p : Post), s.node.resetHeld = false → s.round.phase = .posting → s.line.slot.post = some p →
    (∀ octet : Byte, s.line.cond = .frame → 64 ≤ octet.toNat → octet.toNat < 192 →
      ∃ t, exec (.firstOctetComplete octet) s = .next t ∧ t.line.slot = .empty ∧
        t.round.postsLost = satInc s.round.postsLost ∧
        ∃ later : List EventRecord, t.log = later.foldl EventLog.offer (s.log.offer ⟨.postLost, s.round.roundCount, s.own, 1⟩)) ∧
    (∀ first : TakenFirst, s.line.cond = .longHold → s.node.state ≠ .setup →
      ∃ t, exec (.markRecognized first) s = .next t ∧ t.round.postsLost = satInc s.round.postsLost ∧
        t.round.roundCount = s.round.roundCount + 1 ∧
        ∃ later : List EventRecord, t.log = later.foldl EventLog.offer (s.log.offer ⟨.postLost, s.round.roundCount, s.own, 2⟩))

/-- The snapshot close, made at a first octet in ACTIVE, MUTE and BARRED: the tag vote, the misaligned count, every entry's
transition, every group record on the expected sets of the entries before it, the limit states, runs and ALARM. That the
own entry takes a duplicate's aligned post is the model's choice (log 22).
MARK_RECOGNIZED while the phase is POSTING makes the same close before anything else, in every node state that takes the
instant, with detail 2 for a POST still in the slot and with tag and round count not yet advanced; the instant is then that
of the phase REQUEST (sections 3.3 and 3.5). -/
def Obligations.SnapshotCloseBringsTablesUpToDate : Prop :=
  (∀ (s : State) (octet : Byte), s.Hearing → s.round.phase = .posting → 64 ≤ octet.toNat → octet.toNat < 192 →
    s.node.state.Closes →
    ∃ t, exec (.firstOctetComplete octet) s = .next t ∧
      let tag := (tagVote s.round.tag s.table.intake).getD s.round.tag
      let aligned := s.table.intake.filter fun p => p.tag = tag - 1
      let wrong := s.table.intake.filter fun p => p.tag ≠ tag - 1
      t.round.tag = tag ∧ t.round.roundCount = s.round.roundCount ∧ t.table.intake = s.table.intake ∧
      t.table.misaligned = satAdd s.table.misaligned wrong.length ∧
      (∀ i : Fin 62, t.table.entries[i] =
        s.table.entries[i].close (aligned.find? fun p => p.source = BitVec.ofNat 6 (i.val + 1)) s.round.roundCount
          s.handler.store.plan.lapse.toNat) ∧
      (∀ g : Fin 8,
        t.groups.cells[g].record = groupRecord aligned (expectedSet s.table.entries g) s.round.roundCount g ∧
        t.groups.cells[g].limit =
          nextLimit (s.handler.store.limit g) t.groups.cells[g].record s.groups.cells[g].limit ∧
        t.groups.cells[g].run =
          if t.groups.cells[g].record.complete then 0 else satInc s.groups.cells[g].run) ∧
      (t.groups.alarm = true ↔ ∃ g : Fin 8, (s.handler.store.limit g).watched = true ∧
        (t.groups.cells[g].limit ≠ .normal ∨ ((s.handler.store.limit g).rounds ≠ 0#4 ∧
          (s.handler.store.limit g).rounds.toNat ≤ t.groups.cells[g].run.toNat))) ∧
      t.sampler = s.sampler ∧ t.aux = s.aux ∧ t.handler = s.handler ∧ t.node.state = s.node.state) ∧
  (∀ (s : State) (first : TakenFirst) (octet : Byte), s.node.resetHeld = false → s.line.cond = .longHold →
    s.node.state ≠ .setup → s.round.phase = .posting → 64 ≤ octet.toNat → octet.toNat < 192 →
    let unsent := s.line.slot.hasPost
    ∃ u, u.round.phase = .request ∧
      exec (.firstOctetComplete octet) { s with
        line := { s.line with cond := .frame, slot := if unsent then .empty else s.line.slot }
        round := { s.round with postsLost := if unsent then satInc s.round.postsLost else s.round.postsLost }
        log := if unsent then s.log.offer ⟨.postLost, s.round.roundCount, s.own, 2⟩ else s.log } = .next u ∧
      exec (.markRecognized first) s =
        exec (.markRecognized first) { u with line := { u.line with cond := .longHold } })

/-- The records of one posting close and its snapshot close, in order: POST-LOST, TAG-SLIP, the station records in
ascending order of station, the group records in ascending order of group, all with the round count of the close.
That the own entry takes a duplicate's aligned post is the model's choice (log 22). -/
def Obligations.CloseRecordsReachLogInOrder : Prop :=
  ∀ (s : State) (octet : Byte), s.Hearing → s.round.phase = .posting → 64 ≤ octet.toNat → octet.toNat < 192 →
    s.node.state.Closes →
    ∃ t, exec (.firstOctetComplete octet) s = .next t ∧
      let tag := (tagVote s.round.tag s.table.intake).getD s.round.tag
      let aligned := s.table.intake.filter fun p => p.tag = tag - 1
      let lapse := s.handler.store.plan.lapse.toNat
      let lost := if s.line.slot.hasPost then [(EventKind.postLost, s.own, 1#8)] else []
      let slip := match tagVote s.round.tag s.table.intake with
        | some new => [(EventKind.tagSlip, 0#6, new)]
        | none => []
      let stations := (List.finRange 62).filterMap fun i =>
        (s.table.entries[i].closeRecord (aligned.find? fun p => p.source = BitVec.ofNat 6 (i.val + 1)) lapse).map
          fun r => (r.1, BitVec.ofNat 6 (i.val + 1), r.2)
      let groups := (List.finRange 8).filterMap fun g =>
        groupEvent (s.handler.store.limit g) t.groups.cells[g].record s.groups.cells[g] g
      t.log = (lost ++ slip ++ stations ++ groups).foldl
        (fun log r => log.offer { kind := r.1, roundCount := s.round.roundCount, station := r.2.1, detail := r.2.2 })
        s.log

/-- QUIET_FOR_PHASE_GAP with all it can meet together: a line-fault flag is cleared, an owed mark is originated, and a running
posting phase makes the same close as a first octet does (with no POST in the slot). In whatever order the three are taken
the outcome is the same, but for the order of their records in the log (sections 1.4, 3.2, 3.5 and 10.3). In a phase other
than POSTING the close is nothing, as at a first octet. The order operand is the model's (log 6), the condition FRAME of a
hold from OPEN deduced (log 12). -/
def Obligations.QuietClosesAsFirstOctetDoes : Prop :=
  ∀ (s : State) (octet : Byte), s.node.resetHeld = false → s.line.cond = .opened → s.line.window = false →
    s.line.slot.hasPost = false → 64 ≤ octet.toNat → octet.toNat < 192 →
    ∃ (u : State) (close : List EventRecord),
      (∀ l : EventLog, exec (.firstOctetComplete octet) { s with line := { s.line with cond := .frame }, log := l } =
        .next { u with log := close.foldl EventLog.offer l }) ∧
      ∀ order : QuietOrder,
        let line : List EventRecord := if s.line.fault then [⟨.lineReleased, s.round.roundCount, 0, 0⟩] else []
        let owed : List EventRecord := match s.round.owed with
          | none => []
          | some cause => [⟨.markDeferred, s.round.roundCount, 0, cause.code⟩]
        let records := match order with
          | .lineOwedClose => line ++ owed ++ close
          | .lineCloseOwed => line ++ close ++ owed
          | .owedLineClose => owed ++ line ++ close
          | .owedCloseLine => owed ++ close ++ line
          | .closeLineOwed => close ++ line ++ owed
          | .closeOwedLine => close ++ owed ++ line
        exec (.quietForPhaseGap order) s = .next { u with
          line := match s.round.owed with
            | none => { s.line with releasedRun := 96, fault := false }
            | some _ => { s.line.begun with markHold := true, fault := false }
          round := match s.round.owed with
            | none => u.round
            | some _ => { u.round with owed := none, marksOriginated := satInc s.round.marksOriginated,
                                       marksDeferred := satInc s.round.marksDeferred }
          log := records.foldl EventLog.offer s.log }

/-- At a posting close made in ACTIVE the collision note sets the duplicate-suspect flag and is cleared; a collision of an own
POST with that flag set bars the node: it is counted in the run, DUPLICATE-NUMBER carries the tag of the POST, the slot is
emptied, both measurements are abandoned, and tables, groups, store, tag and round count are kept (section 4.7).
The cleared counters inside the sampler are the model's layout (log 14). -/
def Obligations.SecondCollisionBarsNode : Prop :=
  (∀ (s : State) (octet : Byte), s.Hearing → s.round.phase = .posting → 64 ≤ octet.toNat → octet.toNat < 192 →
     ∃ t, exec (.firstOctetComplete octet) s = .next t ∧
       t.node = if s.node.state = .active then
           { s.node with dupSuspect := s.node.dupSuspect || s.node.collisionNote, collisionNote := false }
         else s.node) ∧
  (∀ (s : State) (first : TakenFirst) (p : Post), s.node.resetHeld = false → s.node.state = .active →
     s.line.txRun ≤ 7 → s.line.slot = .sending (.post p) → s.node.dupSuspect = true →
     exec (.collision first) s = .next { s with
       node := { s.node with state := .barred, setupTimer := none, adoption := .none, silentMarks := 0,
                             listenClaim := false, dupSuspect := false, collisionNote := false }
       line := { s.line with slot := .empty, markHold := false, txRun := s.line.txRun + 1 }
       round := { s.round with owed := none }
       sampler := { s.sampler with stage := .idle, work := Work.cleared, finished := none }
       aux := Aux.cleared s.aux.pin
       handler := { s.handler with awaited := .none }
       log := s.log.offer ⟨.duplicateNumber, s.round.roundCount, s.own, p.tag⟩ })

/-- The tag vote moves the tag exactly when misaligned posts outnumber aligned ones and two of them share a tag, to the most
frequent misaligned tag, the lowest on a tie, plus 1; then the posts with that tag are aligned and those aligned before
are misaligned (section 7.4). -/
def Obligations.TagVoteTakesMostFrequentTag : Prop :=
  (∀ (tag new : BitVec 8) (posts : List Post),
     let wrong := (posts.filter fun p => p.tag ≠ tag - 1).map (·.tag)
     let aligned := posts.filter fun p => p.tag = tag - 1
     tagVote tag posts = some new ↔
       aligned.length < wrong.length ∧ ∃ t : BitVec 8, new = t + 1 ∧ 2 ≤ wrong.count t ∧
         ∀ u : BitVec 8, wrong.count u ≤ wrong.count t ∧ (wrong.count u = wrong.count t → t.toNat ≤ u.toNat)) ∧
  (∀ (tag new : BitVec 8) (posts : List Post), tagVote tag posts = some new →
     (∀ p ∈ posts, p.tag = tag - 1 → p.aligned tag = true ∧ p.aligned new = false) ∧
     2 ≤ (posts.filter fun p => p.aligned new).length)

/-- The expected set of a group is the stations whose entries are PRESENT or LAPSING in it; the group is complete exactly when
at least one station is expected and every expected one is the source of a contributor to it (sections 7.4 and 8.2). -/
def Obligations.GroupCompleteWhenAllExpectedContribute : Prop :=
  (∀ (entries : Vector Entry 62) (g : Fin 8),
     (expectedSet entries g).Nodup ∧
     ∀ n : BitVec 6, n ∈ expectedSet entries g ↔ ∃ i : Fin 62, n.toNat = i.val + 1 ∧
       (entries[i].state = .present ∨ entries[i].state = .lapsing) ∧ entries[i].group.toNat = g.val) ∧
  (∀ (posts : List Post) (expected : List (BitVec 6)) (roundCount : BitVec 16) (g : Fin 8),
     let r := groupRecord posts expected roundCount g
     r.expected = expected.length ∧
     (r.complete = true ↔ 1 ≤ expected.length ∧ ∀ n ∈ expected, ∃ p ∈ posts, p.source = n ∧
       p.group.toNat = g.val ∧ (p.reading.quality = .good ∨ p.reading.quality = .clipped)))

/-- An entry with an aligned post takes it, whatever its quality; one without is charged under the lapse limit: state, miss run,
counters, fields and record as the two tables of section 7.4 say. Which post the node's own entry is given when a duplicate's
aligned post is in the list is the model's choice (log 22). -/
def Obligations.EntriesMoveAtSnapshotClose : Prop :=
  (∀ (e : Entry) (p : Post) (roundCount : BitVec 16) (lapse : Nat),
     let after := e.close (some p) roundCount lapse
     after.state = (match e.state with
       | .vacant => .seen
       | .seen => .present
       | .present => .present
       | .lapsing => .present
       | .lapsed => .present) ∧
     after.missRun = 0 ∧ after.group = p.group ∧ after.lastTag = p.tag ∧ after.lastQuality = p.reading.quality ∧
     after.lastValue = p.reading.value ∧ after.lastAux = p.aux ∧ after.alarm = p.alarm ∧
     after.heard = satInc e.heard ∧ after.misses = e.misses ∧ after.lastHeard = roundCount ∧
     e.closeRecord (some p) lapse = (match e.state with
       | .seen => some (.stationNew, p.group.setWidth 8)
       | .lapsed => some (.stationReturned, p.group.setWidth 8)
       | .vacant => none
       | .present => none
       | .lapsing => none)) ∧
  (∀ (e : Entry) (roundCount : BitVec 16) (lapse : Nat), 1 ≤ lapse → lapse ≤ 15 →
     let after := e.close none roundCount lapse
     let record := e.closeRecord none lapse
     (e.state = .vacant → after = e ∧ record = none) ∧
     (e.state = .seen → after = Entry.vacant ∧ record = none) ∧
     (e.state = .present → 2 ≤ lapse →
       after = { e with state := .lapsing, missRun := 1, misses := satInc e.misses } ∧ record = none) ∧
     (e.state = .present → lapse = 1 →
       after = { e with state := .lapsed, missRun := 1, misses := satInc e.misses } ∧
       record = some (.stationLapsed, e.group.setWidth 8)) ∧
     (e.state = .lapsing → e.missRun + 1 < lapse →
       after = { e with missRun := e.missRun + 1, misses := satInc e.misses } ∧ record = none) ∧
     (e.state = .lapsing → e.missRun + 1 = lapse →
       after = { e with state := .lapsed, missRun := lapse, misses := satInc e.misses } ∧
       record = some (.stationLapsed, e.group.setWidth 8)) ∧
     (e.state = .lapsed → after = { e with missRun := lapse, misses := satInc e.misses } ∧ record = none))

/-- The sum of a group is exact and fits 32 bits, its minimum and maximum are the least and greatest contributing values with
the lowest station that holds each, and its mean is the sum over the contributors rounded toward zero, between minimum and
maximum; without contributors the sum is 0 and the rest is absent (R140, R141, R142). -/
def Obligations.GroupSumExtremesAndMean : Prop :=
  (∀ (posts : List Post) (expected : List (BitVec 6)) (roundCount : BitVec 16) (g : Fin 8),
     let r := groupRecord posts expected roundCount g
     r.sum = ((posts.filter fun p => p.group.toNat = g.val).filterMap fun p =>
       match p.reading with
       | .good v => some v.toInt
       | .clipped v => some v.toInt
       | .unstable _ => none
       | .outOfBand _ => none
       | .noSignal => none
       | .overrun => none
       | .notSampled => none).sum ∧
     (r.contributors = 0 → r.sum = 0) ∧
     (posts.length ≤ 62 → -520093696 ≤ r.sum ∧ r.sum ≤ 520093634 ∧ (BitVec.ofInt 32 r.sum).toInt = r.sum) ∧
     (posts.length ≤ 62 → (∀ p ∈ posts, p.reading.value ≠ some 0x800000#24) → -520093634 ≤ r.sum)) ∧
  (∀ (posts : List Post) (expected : List (BitVec 6)) (roundCount : BitVec 16) (g : Fin 8),
     let r := groupRecord posts expected roundCount g
     let cs := contributors posts g
     (r.extremes = none ↔ cs = []) ∧
     ∀ x : Extremes, r.extremes = some x →
       (x.minStation, x.minimum) ∈ cs ∧ (x.maxStation, x.maximum) ∈ cs ∧
       (∀ c ∈ cs, x.minimum ≤ c.2 ∧ (c.2 = x.minimum → x.minStation.toNat ≤ c.1.toNat)) ∧
       (∀ c ∈ cs, c.2 ≤ x.maximum ∧ (c.2 = x.maximum → x.maxStation.toNat ≤ c.1.toNat)) ∧
       ∀ c, cs = [c] → x.minimum = c.2 ∧ x.maximum = c.2 ∧ x.minStation = c.1 ∧ x.maxStation = c.1) ∧
  (∀ (posts : List Post) (expected : List (BitVec 6)) (roundCount : BitVec 16) (g : Fin 8),
     let r := groupRecord posts expected roundCount g
     (r.contributors = 0 → r.extremes = none) ∧
     (1 ≤ r.contributors → ∃ x : Extremes, r.extremes = some x ∧
       0 ≤ x.mean * r.sum ∧ x.mean.natAbs * r.contributors ≤ r.sum.natAbs ∧
       r.sum.natAbs < (x.mean.natAbs + 1) * r.contributors ∧
       x.minimum ≤ x.mean ∧ x.mean ≤ x.maximum ∧ (BitVec.ofInt 24 x.mean).toInt = x.mean) ∧
     ((extremesOf [(1#6, -7), (2#6, -8)]).map fun x => (x.mean, x.minimum, x.maximum)) = some (-7, -8, -7))

/-- A watched complete group is evaluated on its basis by the table of R148 and a change is recorded; an incomplete one keeps
its state, its run increases, and the close that brings the run to its setting records it; an unwatched one offers nothing
(sections 8.4 and 8.5). -/
def Obligations.CloseEvaluatesLimitsAndRuns : Prop :=
  (∀ (l : LimitRecord) (b : Int), l.low.toInt < l.high.toInt →
     (l.hysteresis.toNat : Int) ≤ l.high.toInt - l.low.toInt →
     let h : Int := l.hysteresis.toNat
     (LimitState.evaluate .normal l b = .high ↔ l.high.toInt < b) ∧
     (LimitState.evaluate .normal l b = .low ↔ b < l.low.toInt) ∧
     (LimitState.evaluate .high l b = .low ↔ b < l.low.toInt) ∧
     (LimitState.evaluate .high l b = .normal ↔ l.low.toInt ≤ b ∧ b ≤ l.high.toInt - h) ∧
     (LimitState.evaluate .low l b = .high ↔ l.high.toInt < b) ∧
     (LimitState.evaluate .low l b = .normal ↔ l.low.toInt + h ≤ b ∧ b ≤ l.high.toInt)) ∧
  (∀ (l : LimitRecord) (r : GroupRecord) (before : GroupCell) (g : Fin 8),
     let after := nextLimit l r before.limit
     let run := nextRun r before.run
     (l.watched = false → after = before.limit ∧ groupEvent l r before g = none) ∧
     (r.complete = false → after = before.limit ∧ run = satInc before.run ∧
       (groupEvent l r before g =
         if l.watched = true ∧ l.rounds ≠ 0#4 ∧ run.toNat = l.rounds.toNat then
           some (.groupIncomplete, 0#6, BitVec.ofNat 8 (16 * g.val + l.rounds.toNat))
         else none)) ∧
     (l.watched = true → r.complete = true → run = 0#8 ∧ ∀ b : Int,
       (match l.basis with
         | .sum => some r.sum
         | .mean => r.extremes.map (·.mean)
         | .min => r.extremes.map (·.minimum)
         | .max => r.extremes.map (·.maximum)) = some b →
       after = before.limit.evaluate l b ∧
       groupEvent l r before g = if after = before.limit then none else
         some (.groupLimit, 0#6, BitVec.ofNat 8 (16 * g.val + (match after with
           | .normal => 0
           | .high => 1
           | .low => 2)))))

/-! ### The sampler (sections 5.1 to 5.7) -/

/-- The raw reading is (8,000,000·N)²/(10·C²) rounded down; the value is (raw − zero)·gain/4096 rounded toward zero and clamped
to −8,388,607..8,388,607 (R87, R90). -/
def Obligations.RawReadingAndCalibratedValue : Prop :=
  ((∀ n c : Nat, 0 < c →
     rawReading n c * (10 * (c * c)) ≤ (8000000 * n) * (8000000 * n) ∧
     (8000000 * n) * (8000000 * n) < (rawReading n c + 1) * (10 * (c * c))) ∧
   rawReading 128 512000 = 400000 ∧
   ∀ n c : Nat, 0 < c → 8000000 * n = 8000 * c → rawReading n c = 6400000) ∧
  (∀ (cal : Cal) (raw : Nat),
     let product := ((raw : Int) - cal.zero.toNat) * cal.gain.toInt
     let v := unclampedValue cal raw
     0 ≤ v * product ∧ 4096 * v.natAbs ≤ product.natAbs ∧ product.natAbs < 4096 * (v.natAbs + 1) ∧
     (8388607 < v → clampValue v = 8388607) ∧ (v < -8388607 → clampValue v = -8388607) ∧
     (-8388607 ≤ v → v ≤ 8388607 → clampValue v = v) ∧
     (BitVec.ofInt 24 (clampValue v)).toInt = clampValue v ∧ clampValue v ≠ -8388608 ∧
     (cal.gain.toInt = 4096 → v = (raw : Int) - cal.zero.toNat) ∧ (cal.gain.toInt = 0 → v = 0))

/-- The stability check (R88), the band check (R89), and the order of the qualities: UNSTABLE, else OUT-OF-BAND, else CLIPPED
when the clamp acted, else GOOD, with the clamped value in each case (section 5.5). -/
def Obligations.StabilityAndBandDecideQuality : Prop :=
  (∀ (p : Plan) (c1 c2 : Nat),
     unstable p c1 c2 = true ↔
       (p.tolerance.toNat : Int) * ((c1 : Int) + c2) < (((c1 : Int) - c2).natAbs : Int) * 1000000) ∧
  (∀ (p : Plan) (c : Nat),
     (outOfBand p c = true ↔
       8000000 * p.count < p.bandLow.toNat * c ∨ p.bandHigh.toNat * c < 8000000 * p.count) ∧
     (0 < p.bandLow.toNat → c ≤ countWindow p → 4 * (p.bandLow.toNat * c) ≤ 5 * (8000000 * p.count))) ∧
  (∀ (p : Plan) (cal : Cal) (c1 c2 : Nat),
     let exact := unclampedValue cal (rawReading p.count (c1 + c2))
     let r := completedReading p cal c1 c2
     r.value = some (BitVec.ofInt 24 (clampValue exact)) ∧
     (unstable p c1 c2 = true → r.quality = .unstable) ∧
     (unstable p c1 c2 = false → outOfBand p (c1 + c2) = true → r.quality = .outOfBand) ∧
     (unstable p c1 c2 = false → outOfBand p (c1 + c2) = false → 8388607 < exact.natAbs → r.quality = .clipped) ∧
     (unstable p c1 c2 = false → outOfBand p (c1 + c2) = false → exact.natAbs ≤ 8388607 → r.quality = .good))

/-- EXCITE lasts the sweep time in SWEEP mode, and in PLUCK mode 8,000,000/(band-low + band-high) clocks rounded down; a sweep
rises linearly from band-low to band-high. EXCITE_END and SETTLE_END lead through SETTLE, or at once with a settle time of 0, to COUNT with its 20 ms first-edge
timer; SENSOR_EDGE: the first edge is edge 0 and opens the window W, each later one adds its clocks to C1 up to edge N/2
and to C2 after it, and an edge in the clock of the one before it is none (sections 5.2 to 5.4). Outside COUNT an edge is not
counted.
The timers hold their loaded lengths (log 2). -/
def Obligations.SamplerStagesAndEdges : Prop :=
  (∀ p : Plan,
     (p.pluck = false → exciteClocks p = p.sweep.toNat * 8000) ∧
     (p.pluck = true → 0 < p.bandLow.toNat + p.bandHigh.toNat →
       exciteClocks p * (p.bandLow.toNat + p.bandHigh.toNat) ≤ 8000000 ∧
       8000000 < (exciteClocks p + 1) * (p.bandLow.toNat + p.bandHigh.toNat)) ∧
     (p.bandLow = 400 → p.bandHigh = 6000 → p.pluck = true → exciteClocks p = 1250) ∧
     (p.bandLow = 200 → p.bandHigh = 201 → p.pluck = true → exciteClocks p = 19950) ∧
     (p.pluck = false → p.bandLow.toNat ≤ p.bandHigh.toNat → ∀ t : Nat, t ≤ exciteClocks p →
       (sweepFrequencyTimesLength p t : Int) = p.bandLow.toNat * (exciteClocks p : Int) +
         ((p.bandHigh.toNat : Int) - p.bandLow.toNat) * t ∧
       p.bandLow.toNat * exciteClocks p ≤ sweepFrequencyTimesLength p t ∧
       sweepFrequencyTimesLength p t ≤ p.bandHigh.toNat * exciteClocks p)) ∧
  (∀ s : State, s.node.resetHeld = false →
     (s.sampler.stage = .excite → s.sampler.work.plan.settle ≠ 0 →
       exec .exciteEnd s = .next { s with sampler := { s.sampler with
         stage := .settle
         work := { s.sampler.work with timer := some (s.sampler.work.plan.settle.toNat * 8000) } } }) ∧
     (s.sampler.stage = .excite → s.sampler.work.plan.settle = 0 →
       exec .exciteEnd s = .next { s with sampler := { s.sampler with
         stage := .count
         work := { s.sampler.work with timer := some 160000, started := false, edges := 0, c1 := 0, c2 := 0 } } }) ∧
     (s.sampler.stage = .settle →
       exec .settleEnd s = .next { s with sampler := { s.sampler with
         stage := .count
         work := { s.sampler.work with timer := some 160000, started := false, edges := 0, c1 := 0, c2 := 0 } } })) ∧
  (∀ (s : State) (clocks : Nat), s.node.resetHeld = false → s.sampler.stage = .count →
     let w := s.sampler.work
     let c := w.c1 + w.c2 + clocks
     (w.started = false → clocks ≤ 160000 →
       exec (.sensorEdge clocks) s = .next { s with sampler := { s.sampler with
         work := { w with started := true, timer := some (10000000 * w.plan.count / w.plan.bandLow.toNat) } } }) ∧
     (w.started = true → clocks = 0 → exec (.sensorEdge clocks) s = .next s) ∧
     (w.started = true → 0 < clocks → c ≤ 10000000 * w.plan.count / w.plan.bandLow.toNat →
       w.edges + 1 < w.plan.count →
       exec (.sensorEdge clocks) s = .next { s with sampler := { s.sampler with
         work := if w.edges + 1 ≤ w.plan.count / 2 then { w with edges := w.edges + 1, c1 := w.c1 + clocks }
                 else { w with edges := w.edges + 1, c2 := w.c2 + clocks } } })) ∧
  ∀ (s : State) (clocks : Nat), s.sampler.stage ≠ .count → exec (.sensorEdge clocks) s = .next s

/-- An operation completes: at edge N with the reading of its counts, and as NO-SIGNAL at FIRST_EDGE_TIMEOUT, at
COUNT_WINDOW_END and at an edge later than the running time allows. The stage is IDLE, the reading waits, the last own
quality is the new one, and a change between healthy and faulty offers its record (sections 5.4, 5.5 and 5.7).
An edge later than the running time completing the operation as the expiry does is deduced (log 4). -/
def Obligations.CompletionStoresReadingAndReportsHealth : Prop :=
  ∀ (s : State) (c : Instr) (r : Reading), s.node.resetHeld = false → s.sampler.stage = .count →
    let w := s.sampler.work
    let window := 10000000 * w.plan.count / w.plan.bandLow.toNat
    (c = .firstEdgeTimeout ∧ w.started = false ∧ r = .noSignal) ∨
      (c = .countWindowEnd ∧ w.started = true ∧ r = .noSignal) ∨
      (∃ clocks, c = .sensorEdge clocks ∧ w.started = false ∧ 160000 < clocks ∧ r = .noSignal) ∨
      (∃ clocks, c = .sensorEdge clocks ∧ w.started = true ∧ 0 < clocks ∧ window < w.c1 + w.c2 + clocks ∧
        r = .noSignal) ∨
      (∃ clocks, c = .sensorEdge clocks ∧ w.started = true ∧ 0 < clocks ∧ w.c1 + w.c2 + clocks ≤ window ∧
        w.edges + 1 = w.plan.count ∧ r = completedReading w.plan w.cal w.c1 (w.c2 + clocks)) →
    ∃ t, exec c s = .next t ∧ t.sampler.stage = .idle ∧ t.sampler.finished = some r ∧
      t.sampler.lastOwn = r.quality ∧ t.sampler.overruns = s.sampler.overruns ∧
      t = { s with sampler := t.sampler, log := t.log } ∧
      let old := s.sampler.lastOwn
      let detail : BitVec 8 := r.quality.code.setWidth 8
      t.log =
        if (old = .good ∨ old = .clipped) ∧ ¬(r.quality = .good ∨ r.quality = .clipped) then
          s.log.offer ⟨.sensorFault, s.round.roundCount, s.own, detail⟩
        else if ¬(old = .good ∨ old = .clipped) ∧ (r.quality = .good ∨ r.quality = .clipped) then
          s.log.offer ⟨.sensorRecovered, s.round.roundCount, s.own, detail⟩
        else s.log

/-! ### The aux channel (sections 6.2 and 6.3) -/

/-- AUX_EDGE while MEASURING, within the edge timer: each edge reloads it, the first rising edge is edge 0, a falling edge after
it adds the high time, a rising one the period; the eighth period completes the measurement with the duty H·16384/T, ERRATIC
when the periods spread by more than an eighth; AUX_EDGE_TIMEOUT completes it as stuck at its level (sections 6.2 and 6.3).
That the accumulators keep their values after completion is the model's choice (log 14).
An edge later than the edge timer comes after its expiry, so it completes the measurement as stuck at the level before it and
is not counted: deduced (log 4). Outside MEASURING an edge moves the level alone, and so it does while RESET is held: the
level as a field is the model's choice (log 10). A change to the level already sampled is no edge. -/
def Obligations.AuxChannelMeasuresEightPeriods : Prop :=
  (∀ (s : State) (clocks : Nat), s.node.resetHeld = false → s.aux.stage = .measuring → 1 ≤ clocks →
     clocks ≤ 400000 →
     let a := s.aux
     let period := a.openHigh + clocks
     (a.pin = true → a.started = false →
       exec (.auxEdge false clocks) s = .next { s with aux := { a with pin := false, edgeTimer := some 400000 } }) ∧
     (a.pin = true → a.started = true →
       exec (.auxEdge false clocks) s = .next { s with aux :=
         { a with pin := false, edgeTimer := some 400000, high := a.high + clocks, openHigh := clocks } }) ∧
     (a.pin = false → a.started = false →
       exec (.auxEdge true clocks) s = .next { s with aux :=
         { a with pin := true, edgeTimer := some 400000, started := true } }) ∧
     (a.pin = false → a.started = true → a.edgeCount + 1 ≠ 8 →
       exec (.auxEdge true clocks) s = .next { s with aux :=
         { a with pin := true, edgeTimer := some 400000, edgeCount := a.edgeCount + 1, total := a.total + period,
                  openHigh := 0,
                  longest := if a.edgeCount = 0 then period else max a.longest period,
                  shortest := if a.edgeCount = 0 then period else min a.shortest period } })) ∧
  (∀ s : State, s.node.resetHeld = false → s.aux.stage = .measuring →
     (∀ clocks : Nat, 1 ≤ clocks → clocks ≤ 400000 → s.aux.pin = false → s.aux.started = true → s.aux.edgeCount = 7 →
       let period := s.aux.openHigh + clocks
       let longest := max s.aux.longest period
       let shortest := min s.aux.shortest period
       ∃ t duty, exec (.auxEdge true clocks) s = .next t ∧ t = { s with aux := t.aux } ∧ t.aux.stage = .idle ∧
         t.aux.edgeTimer = none ∧ t.aux.total = s.aux.total + period ∧
         t.aux.result = some ⟨if shortest < 8 * (longest - shortest) then .erratic else .ok, duty⟩ ∧
         (s.aux.high < s.aux.total + period →
           duty.toNat * (s.aux.total + period) ≤ s.aux.high * 16384 ∧
           s.aux.high * 16384 < (duty.toNat + 1) * (s.aux.total + period))) ∧
     exec .auxEdgeTimeout s = .next { s with aux := { s.aux with
       stage := .idle, edgeTimer := none,
       result := some (if s.aux.pin then ⟨.stuckHigh, 16383⟩ else ⟨.stuckLow, 0⟩) } }) ∧
  ∀ (s : State) (rising : Bool) (clocks : Nat),
    (s.node.resetHeld = false → s.aux.pin = rising → exec (.auxEdge rising clocks) s = .next s) ∧
    (s.node.resetHeld = false → s.aux.stage = .measuring → s.aux.pin ≠ rising → 400000 < clocks →
      exec (.auxEdge rising clocks) s = .next { s with aux := { s.aux with
        stage := .idle, edgeTimer := none, pin := rising,
        result := some (if s.aux.pin then ⟨.stuckHigh, 16383⟩ else ⟨.stuckLow, 0⟩) } }) ∧
    (s.node.resetHeld = true ∨ s.aux.stage = .idle →
      exec (.auxEdge rising clocks) s = .next { s with aux := { s.aux with pin := rising } })

/-! ### Service requests (sections 9.1 to 9.6) -/

/-- READ_STATUS, READ_ENTRY, READ_GROUP and READ_EVENTS, with their arguments in range and in a node state that permits
them, are answered DONE with their record; nothing else changes. The records are laid out as section 2.7 says, octet by
octet: the status record in 21 octets, the entry record in 1 octet for VACANT and else in 9 to 14, the group record in 10
octets or 21 with contributors, the event record in 5; wider fields stand high octet first. -/
def Obligations.ReadsAreAnsweredFromTheState : Prop :=
  (∀ (s : State) (octets : List Byte) (r : Request), s.HearsRequest octets r →
    (r.code = 1#8 → r.args = [] →
      ∃ code : BitVec 3, code = (match s.node.state with
          | .setup => 0
          | .listen => 1
          | .active => 2
          | .mute => 7
          | .barred => 7) ∧
        exec (.readStatus octets) s = .next (s.answering ⟨s.own, 1, 0, s.statusRecord code⟩ .none)) ∧
    (∀ i : Fin 62, r.code = 2#8 → r.args = [BitVec.ofNat 8 (i.val + 1)] → s.node.state ≠ .setup →
      exec (.readEntry octets) s = .next (s.answering ⟨s.own, 2, 0, s.table.entries[i].octets⟩ .none)) ∧
    (∀ g : Fin 8, r.code = 3#8 → r.args = [BitVec.ofNat 8 g.val] → s.node.state ≠ .setup →
      exec (.readGroup octets) s = .next (s.answering ⟨s.own, 3, 0, s.groups.cells[g].octets⟩ .none)) ∧
    (∀ n : Byte, r.code = 4#8 → r.args = [n] → 1 ≤ n.toNat → n.toNat ≤ 4 →
      exec (.readEvents octets) s = .next (s.answering ⟨s.own, 4, 0,
        BitVec.ofNat 8 s.log.records.length :: (s.log.records.take n.toNat).flatMap EventRecord.octets⟩ .none))) ∧
  (∀ (s : State) (code : BitVec 3), ∃ o1 : Byte,
     (o1.extractLsb' 5 3 = code ∧ o1.getLsbD 4 = s.groups.alarm ∧ o1.getLsbD 3 = s.node.straps.auxEnabled ∧
       o1.getLsbD 2 = s.line.fault ∧ o1.extractLsb' 0 2 = 0#2) ∧
     s.statusRecord code =
       [o1, s.round.roundCount.extractLsb' 8 8, s.round.roundCount.extractLsb' 0 8, s.round.tag,
        s.handler.digest.extractLsb' 8 8, s.handler.digest.extractLsb' 0 8,
        s.line.rxErrors.extractLsb' 8 8, s.line.rxErrors.extractLsb' 0 8, BitVec.ofNat 8 s.line.txRun,
        s.round.marksOriginated.extractLsb' 8 8, s.round.marksOriginated.extractLsb' 0 8, s.round.marksDeferred,
        s.sampler.overruns.extractLsb' 8 8, s.sampler.overruns.extractLsb' 0 8,
        s.round.postsLost.extractLsb' 8 8, s.round.postsLost.extractLsb' 0 8,
        s.table.misaligned.extractLsb' 8 8, s.table.misaligned.extractLsb' 0 8,
        BitVec.ofNat 8 s.log.records.length, s.log.dropped, 0]) ∧
  (∀ e : Entry,
     (e.state = .vacant → e.octets = [0#8]) ∧
     (e.state ≠ .vacant → e.missRun ≤ 15 → ∃ o1 o3 : Byte,
       (o1.extractLsb' 5 3 = (match e.state with
          | .vacant => 0
          | .seen => 1
          | .present => 2
          | .lapsing => 3
          | .lapsed => 4) ∧
         o1.getLsbD 4 = e.lastValue.isSome ∧ o1.getLsbD 3 = e.lastAux.isSome ∧ o1.extractLsb' 0 3 = e.group) ∧
       (o3.extractLsb' 5 3 = (match e.lastQuality with
          | .good => 0
          | .clipped => 1
          | .unstable => 2
          | .outOfBand => 3
          | .noSignal => 4
          | .overrun => 5
          | .notSampled => 6) ∧
         o3.getLsbD 4 = e.alarm ∧ (o3.extractLsb' 0 4).toNat = e.missRun) ∧
       e.octets = [o1, e.lastTag, o3] ++
         (match e.lastValue with
           | some v => [v.extractLsb' 16 8, v.extractLsb' 8 8, v.extractLsb' 0 8]
           | none => []) ++
         (match e.lastAux with
           | some a => [a.extractLsb' 8 8, a.extractLsb' 0 8]
           | none => []) ++
         [e.heard.extractLsb' 8 8, e.heard.extractLsb' 0 8, e.misses.extractLsb' 8 8, e.misses.extractLsb' 0 8,
          e.lastHeard.extractLsb' 8 8, e.lastHeard.extractLsb' 0 8] ∧
       e.octets.length = 9 + (if e.lastValue.isSome then 3 else 0) + (if e.lastAux.isSome then 2 else 0))) ∧
  (∀ c : GroupCell, ∃ o3 : Byte,
     (o3.getLsbD 7 = c.record.complete ∧ o3.extractLsb' 5 2 = (match c.limit with
        | .normal => 0
        | .high => 1
        | .low => 2) ∧ o3.extractLsb' 0 5 = 0#5) ∧
     c.octets =
       [BitVec.ofNat 8 c.record.expected, BitVec.ofNat 8 c.record.contributors, o3, c.run,
        c.record.lastClose.extractLsb' 8 8, c.record.lastClose.extractLsb' 0 8] ++ octets32 (BitVec.ofInt 32 c.record.sum) ++
       (match c.record.extremes with
         | none => []
         | some x => x.minStation.setWidth 8 :: octets24 (BitVec.ofInt 24 x.minimum) ++
             x.maxStation.setWidth 8 :: octets24 (BitVec.ofInt 24 x.maximum) ++ octets24 (BitVec.ofInt 24 x.mean)) ∧
     c.octets.length = if c.record.extremes.isSome then 21 else 10) ∧
  (∀ r : EventRecord, r.octets =
     [match r.kind with
       | .setupClosed => 1
       | .strapInvalid => 2
       | .markDeferred => 3
       | .sampleOverrun => 4
       | .sensorFault => 5
       | .sensorRecovered => 6
       | .postLost => 7
       | .stationNew => 8
       | .stationLapsed => 9
       | .stationReturned => 10
       | .groupLimit => 11
       | .groupIncomplete => 12
       | .tagSlip => 13
       | .txErrorRun => 14
       | .duplicateNumber => 15
       | .lineStuck => 16
       | .lineReleased => 17
       | .restarted => 18, r.roundCount.extractLsb' 8 8, r.roundCount.extractLsb' 0 8, r.station.setWidth 8, r.detail]) ∧
  (∀ (v : BitVec 24) (w : BitVec 32),
     octets24 v = [v.extractLsb' 16 8, v.extractLsb' 8 8, v.extractLsb' 0 8] ∧
     octets32 w = [w.extractLsb' 24 8, w.extractLsb' 16 8, w.extractLsb' 8 8, w.extractLsb' 0 8])

/-- ACK_EVENTS removes the oldest records, clears the dropped counter and answers with the records remaining and the counter as
it stood; FORGET clears a LAPSED entry, and refuses any other with REFUSED-STATE (sections 7.6, 9.4, 9.5 and 10.5). -/
def Obligations.AckAndForgetRemoveWhatTheyName : Prop :=
  (∀ (s : State) (octets : List Byte) (r : Request) (n : Byte), s.HearsRequest octets r → r.code = 5#8 →
     r.args = [n] → 1 ≤ n.toNat → n.toNat ≤ 16 →
     exec (.ackEvents octets) s = .next
       { s.answering ⟨s.own, 5, 0,
           [BitVec.ofNat 8 (s.log.records.length - n.toNat), s.log.dropped]⟩ .none with
         log := { records := s.log.records.drop n.toNat, dropped := 0 } }) ∧
  (∀ (s : State) (octets : List Byte) (r : Request) (i : Fin 62), s.HearsRequest octets r → r.code = 17#8 →
     r.args = [BitVec.ofNat 8 (i.val + 1)] → s.node.state ≠ .setup →
     (s.table.entries[i].state = .lapsed →
       ∃ t, exec (.forget octets) s = .next t ∧ t.table.entries[i] = Entry.vacant ∧
         (∀ j : Fin 62, j ≠ i → t.table.entries[j] = s.table.entries[j]) ∧
         t = { s.answering ⟨s.own, 17, 0, []⟩ .none with table := { s.table with entries := t.table.entries } }) ∧
     (s.table.entries[i].state ≠ .lapsed →
       exec (.forget octets) s = .next (s.answering ⟨s.own, 17, 3, []⟩ .none)))

/-- QUIET in ACTIVE, RESTART in LISTEN and ACTIVE and CLOSE_SETUP in SETUP, sent to one node, are answered DONE and only
recorded as the awaited effect. -/
def Obligations.StateCommandsWaitForTheirAnswer : Prop :=
  ∀ (s : State) (octets : List Byte) (r : Request), s.HearsRequest octets r →
    (∀ n : Byte, r.code = 18#8 → r.args = [n] → n ≠ 0#8 → s.node.state = .active →
      exec (.quiet octets) s = .next (s.answering ⟨s.own, 18, 0, []⟩ (.quiet n))) ∧
    (r.code = 19#8 → r.args = [] → s.node.state ≠ .setup →
      exec (.restart octets) s = .next (s.answering ⟨s.own, 19, 0, []⟩ .restart)) ∧
    (r.code = 36#8 → r.args = [] → s.node.state = .setup →
      exec (.closeSetup octets) s = .next (s.answering ⟨s.own, 36, 0, []⟩ .closeSetup))

/-- CONFIGURE_PLAN, CONFIGURE_CAL and CONFIGURE_LIMITS in SETUP write what their argument lays out, the digest becomes the
check of the new image, and nothing else changes; what is written is as the three layout statements say. -/
def Obligations.ConfigureWritesStoreInSetup : Prop :=
  ∀ (s : State) (octets : List Byte) (r : Request) (store : Store), s.HearsRequest octets r → s.node.state = .setup →
    (r.code = 33#8 → configurePlan r.args s.handler.store = some store →
      exec (.configurePlan octets) s = .next { s.answering ⟨s.own, 33, 0, []⟩ .none with
        handler := { store := store, digest := check store.image, awaited := .none } }) ∧
    (r.code = 34#8 → configureCal r.args s.handler.store = some store →
      exec (.configureCal octets) s = .next { s.answering ⟨s.own, 34, 0, []⟩ .none with
        handler := { store := store, digest := check store.image, awaited := .none } }) ∧
    (r.code = 35#8 → configureLimits r.args s.handler.store = some store →
      exec (.configureLimits octets) s = .next { s.answering ⟨s.own, 35, 0, []⟩ .none with
        handler := { store := store, digest := check store.image, awaited := .none } })

/-- Every plan section, calibration and limit section that lies in the ranges of the layouts is accepted from its own image.
Nothing else is accepted: a plan argument writes exactly when it is section 1 or 2 of 6 octets with every field in its
range and the bits shown as 0 at 0, and a limit argument exactly when it is a section 1 of 2 octets with those bits 0 or a
section 2 to 4 of 5 octets that agrees with the stored bounds; each writes the fields of its section and no other
(section 2.7; what a calibration argument writes is CalibrationArgumentOfR175). -/
def Obligations.ConfigurationLayoutsRoundTrip : Prop :=
  (∀ s new : Store,
    (new.PlanOk →
      configurePlan (1#8 :: new.plan.section1) s = some { s with plan :=
        { s.plan with bandLow := new.plan.bandLow, bandHigh := new.plan.bandHigh, pluck := new.plan.pluck,
                      periods := new.plan.periods } } ∧
      configurePlan (2#8 :: new.plan.section2) s = some { s with plan :=
        { s.plan with sweep := new.plan.sweep, settle := new.plan.settle, tolerance := new.plan.tolerance,
                      lapse := new.plan.lapse } } ∧
      configureCal new.cal.image s = some { s with cal := new.cal }) ∧
    (∀ (g : Fin 8) (l : LimitRecord),
      configureLimits [BitVec.ofNat 8 (16 + g.val), l.section1] s = some (s.withLimit g
        { s.limit g with watched := l.watched, basis := l.basis, rounds := l.rounds }) ∧
      configureLimits (BitVec.ofNat 8 (32 + g.val) :: octets32 l.high) s =
        (if boundsAgree l.high (s.limit g).low (s.limit g).hysteresis = true then
          some (s.withLimit g { s.limit g with high := l.high }) else none) ∧
      configureLimits (BitVec.ofNat 8 (48 + g.val) :: octets32 l.low) s =
        (if boundsAgree (s.limit g).high l.low (s.limit g).hysteresis = true then
          some (s.withLimit g { s.limit g with low := l.low }) else none) ∧
      configureLimits (BitVec.ofNat 8 (64 + g.val) :: octets32 l.hysteresis) s =
        (if boundsAgree (s.limit g).high (s.limit g).low l.hysteresis = true then
          some (s.withLimit g { s.limit g with hysteresis := l.hysteresis }) else none))) ∧
  (∀ (args : List Byte) (s t : Store), configurePlan args s = some t ↔
     (∃ a b c d e : Byte, args = [1#8, a, b, c, d, e] ∧
       200 ≤ (a ++ b).toNat ∧ (a ++ b).toNat ≤ 7999 ∧ (a ++ b).toNat + 1 ≤ (c ++ d).toNat ∧ (c ++ d).toNat ≤ 8000 ∧
       e.extractLsb' 2 5 = 0#5 ∧
       t = { s with plan := { s.plan with bandLow := a ++ b, bandHigh := c ++ d, pluck := e.getLsbD 7,
                                          periods := e.extractLsb' 0 2 } }) ∨
     (∃ a b c d e : Byte, args = [2#8, a, b, c, d, e] ∧
       10 ≤ a.toNat ∧ a.toNat ≤ 200 ∧ 100 ≤ (c ++ d).toNat ∧ (c ++ d).toNat ≤ 50000 ∧
       e.extractLsb' 4 4 = 0#4 ∧ 1 ≤ (e.extractLsb' 0 4).toNat ∧
       t = { s with plan := { s.plan with sweep := a, settle := b, tolerance := c ++ d,
                                          lapse := e.extractLsb' 0 4 } })) ∧
  (∀ (args : List Byte) (s t : Store), configureLimits args s = some t ↔ ∃ g : Fin 8,
     (∃ b : Byte, args = [BitVec.ofNat 8 (16 + g.val), b] ∧ b.getLsbD 6 = false ∧
       t = s.withLimit g { s.limit g with
         watched := b.getLsbD 7
         basis := if b.extractLsb' 4 2 = 0#2 then .sum else if b.extractLsb' 4 2 = 1#2 then .mean
           else if b.extractLsb' 4 2 = 2#2 then .min else .max
         rounds := b.extractLsb' 0 4 }) ∨
     ∃ x : BitVec 32,
       (args = BitVec.ofNat 8 (32 + g.val) :: octets32 x ∧ boundsAgree x (s.limit g).low (s.limit g).hysteresis = true ∧
         t = s.withLimit g { s.limit g with high := x }) ∨
       (args = BitVec.ofNat 8 (48 + g.val) :: octets32 x ∧ boundsAgree (s.limit g).high x (s.limit g).hysteresis = true ∧
         t = s.withLimit g { s.limit g with low := x }) ∨
       (args = BitVec.ofNat 8 (64 + g.val) :: octets32 x ∧ boundsAgree (s.limit g).high (s.limit g).low x = true ∧
         t = s.withLimit g { s.limit g with hysteresis := x })) ∧
  (∀ high low hysteresis : BitVec 32, boundsAgree high low hysteresis = true ↔
     low.toInt < high.toInt ∧ (hysteresis.toNat : Int) ≤ high.toInt - low.toInt) ∧
  (∀ (s : Store) (g h : Fin 8) (r : LimitRecord), (s.withLimit g r).plan = s.plan ∧ (s.withLimit g r).cal = s.cal ∧
     (s.withLimit g r).limit h = if h = g then r else s.limit h)

/-- CONFIGURE-CAL writes both fields at once, is refused exactly when zero exceeds 6,400,000 or the argument length is not
5, and takes every pattern of two octets as a gain (R175). -/
def Obligations.CalibrationArgumentOfR175 : Prop :=
  ∀ (args : List Byte) (s : Store),
    (∀ (a b c d e : Byte), args = [a, b, c, d, e] → (a ++ b ++ c).toNat ≤ 6400000 →
      configureCal args s = some { s with cal := { zero := a ++ b ++ c, gain := d ++ e } }) ∧
    (configureCal args s = none ↔
      args.length ≠ 5 ∨ ∃ (a b c d e : Byte), args = [a, b, c, d, e] ∧ 6400000 < (a ++ b ++ c).toNat) ∧
    ∀ (octets : List Byte) (n : State) (r : Request), n.HearsRequest octets r → r.code = 34#8 →
      n.node.state = .setup →
      (∀ store, configureCal r.args n.handler.store = some store →
        ∃ t, exec (.configureCal octets) n = .next t ∧ t.handler.store = store) ∧
      (configureCal r.args n.handler.store = none →
        exec (.configureCal octets) n = .next (n.answering ⟨n.own, 34, 2, []⟩ .none))

/-- The three checks of a taken request, in their order: an unknown code is refused with REFUSED-CODE, a wrong argument with
REFUSED-ARG in any node state, then a node state that does not permit the request with REFUSED-STATE or REFUSED-LOCKED;
a refusal changes nothing but the slot and the line (section 9.2).
A refusal that is not answered changes nothing but the frame's end on the line, an awaited effect included: a broadcast
RESTART with an argument, or in SETUP; a broadcast CLOSE-SETUP with an argument, or outside SETUP; and a single-target
RESTART with an argument in MUTE, where the answer is dropped (sections 9.1 to 9.3). A broadcast RESTART in BARRED and
CLOSE-SETUP in MUTE and BARRED are ignored, to the same end. -/
def Obligations.RefusalsFollowTheOrderOfChecks : Prop :=
  (∀ (s : State) (octets : List Byte) (r : Request), s.HearsBroadcast octets r →
    (r.code = 19#8 → r.args ≠ [] ∨ s.node.state = .setup ∨ s.node.state = .barred →
      exec (.restart octets) s = .next { s with line := s.line.ended false }) ∧
    (r.code = 36#8 → r.args ≠ [] ∨ s.node.state ≠ .setup →
      exec (.closeSetup octets) s = .next { s with line := s.line.ended false })) ∧
  (∀ (s : State) (octets : List Byte) (r : Request), s.Hearing → requestOf octets = some r → s.sampling = true →
    r.target = s.own → s.node.state = .mute → r.code = 19#8 → r.args ≠ [] →
    exec (.restart octets) s = .next { s with line := s.line.ended true }) ∧
  ∀ (s : State) (octets : List Byte) (r : Request), s.HearsRequest octets r →
    (r.code ∉ [1#8, 2#8, 3#8, 4#8, 5#8, 17#8, 18#8, 19#8, 33#8, 34#8, 35#8, 36#8] →
      exec (.unknownRequestCode octets) s = .next (s.answering ⟨s.own, r.code, 1, []⟩ .none)) ∧
    (r.args.length ≠ 1 →
      (r.code = 2#8 → exec (.readEntry octets) s = .next (s.answering ⟨s.own, 2, 2, []⟩ .none)) ∧
      (r.code = 3#8 → exec (.readGroup octets) s = .next (s.answering ⟨s.own, 3, 2, []⟩ .none)) ∧
      (r.code = 4#8 → exec (.readEvents octets) s = .next (s.answering ⟨s.own, 4, 2, []⟩ .none)) ∧
      (r.code = 5#8 → exec (.ackEvents octets) s = .next (s.answering ⟨s.own, 5, 2, []⟩ .none)) ∧
      (r.code = 17#8 → exec (.forget octets) s = .next (s.answering ⟨s.own, 17, 2, []⟩ .none)) ∧
      (r.code = 18#8 → exec (.quiet octets) s = .next (s.answering ⟨s.own, 18, 2, []⟩ .none))) ∧
    (∀ a : Byte, r.args = [a] →
      (r.code = 2#8 → a.toNat = 0 ∨ 62 < a.toNat →
        exec (.readEntry octets) s = .next (s.answering ⟨s.own, 2, 2, []⟩ .none)) ∧
      (r.code = 3#8 → 7 < a.toNat → exec (.readGroup octets) s = .next (s.answering ⟨s.own, 3, 2, []⟩ .none)) ∧
      (r.code = 4#8 → a.toNat = 0 ∨ 4 < a.toNat →
        exec (.readEvents octets) s = .next (s.answering ⟨s.own, 4, 2, []⟩ .none)) ∧
      (r.code = 5#8 → a.toNat = 0 ∨ 16 < a.toNat →
        exec (.ackEvents octets) s = .next (s.answering ⟨s.own, 5, 2, []⟩ .none)) ∧
      (r.code = 17#8 → a.toNat = 0 ∨ 62 < a.toNat →
        exec (.forget octets) s = .next (s.answering ⟨s.own, 17, 2, []⟩ .none)) ∧
      (r.code = 18#8 → a.toNat = 0 → exec (.quiet octets) s = .next (s.answering ⟨s.own, 18, 2, []⟩ .none)) ∧
      (r.code = 2#8 → 1 ≤ a.toNat → a.toNat ≤ 62 → s.node.state = .setup →
        exec (.readEntry octets) s = .next (s.answering ⟨s.own, 2, 3, []⟩ .none)) ∧
      (r.code = 3#8 → a.toNat ≤ 7 → s.node.state = .setup →
        exec (.readGroup octets) s = .next (s.answering ⟨s.own, 3, 3, []⟩ .none)) ∧
      (r.code = 17#8 → 1 ≤ a.toNat → a.toNat ≤ 62 → s.node.state = .setup →
        exec (.forget octets) s = .next (s.answering ⟨s.own, 17, 3, []⟩ .none)) ∧
      (r.code = 18#8 → a.toNat ≠ 0 → s.node.state ≠ .active →
        exec (.quiet octets) s = .next (s.answering ⟨s.own, 18, 3, []⟩ .none))) ∧
    (r.args ≠ [] →
      (r.code = 1#8 → exec (.readStatus octets) s = .next (s.answering ⟨s.own, 1, 2, []⟩ .none)) ∧
      (r.code = 19#8 → exec (.restart octets) s = .next (s.answering ⟨s.own, 19, 2, []⟩ .none)) ∧
      (r.code = 36#8 → exec (.closeSetup octets) s = .next (s.answering ⟨s.own, 36, 2, []⟩ .none))) ∧
    (r.args = [] →
      (r.code = 19#8 → s.node.state = .setup →
        exec (.restart octets) s = .next (s.answering ⟨s.own, 19, 3, []⟩ .none)) ∧
      (r.code = 36#8 → s.node.state ≠ .setup →
        exec (.closeSetup octets) s = .next (s.answering ⟨s.own, 36, 3, []⟩ .none))) ∧
    (r.code = 33#8 →
      (configurePlan r.args s.handler.store = none →
        exec (.configurePlan octets) s = .next (s.answering ⟨s.own, 33, 2, []⟩ .none)) ∧
      (configurePlan r.args s.handler.store ≠ none → s.node.state ≠ .setup →
        exec (.configurePlan octets) s = .next (s.answering ⟨s.own, 33, 4, []⟩ .none))) ∧
    (r.code = 34#8 →
      (configureCal r.args s.handler.store = none →
        exec (.configureCal octets) s = .next (s.answering ⟨s.own, 34, 2, []⟩ .none)) ∧
      (configureCal r.args s.handler.store ≠ none → s.node.state ≠ .setup →
        exec (.configureCal octets) s = .next (s.answering ⟨s.own, 34, 4, []⟩ .none))) ∧
    (r.code = 35#8 →
      (configureLimits r.args s.handler.store = none →
        exec (.configureLimits octets) s = .next (s.answering ⟨s.own, 35, 2, []⟩ .none)) ∧
      (configureLimits r.args s.handler.store ≠ none → s.node.state ≠ .setup →
        exec (.configureLimits octets) s = .next (s.answering ⟨s.own, 35, 4, []⟩ .none)))

/-- The effect of RESTART, made at once for a broadcast in LISTEN, ACTIVE and MUTE and for a single-target request in MUTE:
the operation of section 4.8, every block by its own reset table, with straps, store, line condition and line-fault flag
kept and RESTARTED alone in the log.
The cleared counters inside the sampler are the model's layout (log 14). -/
def Obligations.RestartReturnsNodeToListen : Prop :=
  ∀ (s : State) (octets : List Byte) (r : Request), s.Hearing → requestOf octets = some r → r.code = 19#8 →
    r.args = [] →
    (r.target = 63#6 ∧ (s.node.state = .listen ∨ s.node.state = .active ∨ s.node.state = .mute)) ∨
      (r.target ≠ 63#6 ∧ r.target = s.own ∧ s.sampling = true ∧ s.node.state = .mute) →
    exec (.restart octets) s = .next { s with
      node := { s.node with state := .listen, setupTimer := none, adoption := .none, silentMarks := 0,
                            listenClaim := false, dupSuspect := false, collisionNote := false }
      line := { s.line.ended (decide (r.target ≠ 63#6)) with slot := .empty, txRun := 0, rxErrors := 0 }
      round := { epochTimer := some s.period, listenTimer := s.listenLoad, roundCount := 0, tag := 0,
                 phase := .quietWait, owed := none, epochOut := false, muteCount := 0, marksOriginated := 0,
                 marksDeferred := 0, postsLost := 0 }
      sampler := Sampler.atRelease
      aux := Aux.cleared s.aux.pin
      table := Table.cleared
      groups := Groups.cleared
      handler := { s.handler with awaited := .none }
      log := { records := [⟨.restarted, 0, 0, 0⟩], dropped := 0 } }

/-- The exit from SETUP, by SETUP_TIMER_EXPIRY with detail 0 or a broadcast CLOSE_SETUP with detail 1: SETUP-CLOSED, then
STRAP-INVALID in a node strapped with 63, then LISTEN with the epoch timer loaded with P and the listen timer with
P·(128 + s)/64 in a sampling node (sections 4.1, 4.3 and 4.4). -/
def Obligations.SetupEndsInListen : Prop :=
  ∀ s : State, s.node.resetHeld = false → s.node.state = .setup →
    let listening (u : State) (detail : BitVec 8) : State := { u with
      node := { u.node with state := .listen, setupTimer := none, adoption := .none, silentMarks := 0,
                            listenClaim := false }
      round := { u.round with
        epochTimer := some (Config.periodClocks u.node.straps.period)
        listenTimer := if u.own = 0#6 ∨ u.own = 63#6 then none
          else some (Config.periodClocks u.node.straps.period * (128 + u.own.toNat) / 64) }
      log :=
        let closed := u.log.offer ⟨.setupClosed, u.round.roundCount, 0, detail⟩
        if u.own = 63#6 then closed.offer ⟨.strapInvalid, u.round.roundCount, 0, 63⟩ else closed }
    (s.node.setupTimer.isSome = true → exec .setupTimerExpiry s = .next (listening s 0)) ∧
    (∀ (octets : List Byte) (r : Request), s.HearsBroadcast octets r → r.code = 36#8 → r.args = [] →
      exec (.closeSetup octets) s = .next (listening { s with
        line := s.line.ended false, handler := { s.handler with awaited := .none } } 1))

/-! ### Attempts (sections 1.5, 4.5 and 4.7) -/

/-- TX_SUCCESS: an own POST leaves the slot, joins the intake list in POSTING, and clears the duplicate-suspect flag; an own
ANSWER leaves the slot; the transmit error run is 0 in ACTIVE; nothing else changes. -/
def Obligations.SuccessEmptiesSlotAndDeliversOwnPost : Prop :=
  ∀ s : State, s.Hearing →
    let run := if s.node.state = .active then 0 else s.line.txRun
    (∀ p : Post, s.line.slot = .sending (.post p) → s.round.phase = .posting → s.node.state ≠ .listen →
      exec .txSuccess s = .next { s with
        line := { s.line.ended false with slot := .empty, txRun := run }
        node := { s.node with dupSuspect := false }
        table := { s.table with intake := intakePost p s.table.intake } }) ∧
    (∀ a : Answer, s.line.slot = .sending (.answer a) → s.handler.awaited = .none →
      exec .txSuccess s = .next { s with line := { s.line.ended false with slot := .empty, txRun := run } })

/-- ARBITRATION_LOSS and OPPORTUNITY_MISSED at any run, which they leave unchanged, and COLLISION and DRIVE_FAILURE of an
ACTIVE node whose run is below 7 (the eighth: EighthFailureMutesNode) or of a node in any other state: a POST waits for the next opportunity, an ANSWER with no effect awaited is
given up (one with an effect awaited: AnswerEndCarriesOutAwaitedEffect), a collision of a POST sets the collision note, and
a collision or a drive failure adds 1 to the run in ACTIVE and in no other state.
That FRAME_START in GAP gives up a WAITING ANSWER is deduced (log 8). -/
def Obligations.FailedAttemptsKeepPostAndGiveUpAnswer : Prop :=
  ∀ s : State, s.node.resetHeld = false →
    (∀ p : Post, s.line.slot = .sending (.post p) →
      exec .arbitrationLoss s = .next { s with line := { s.line with slot := .waiting (.post p) } }) ∧
    (∀ a : Answer, s.line.slot = .sending (.answer a) → s.handler.awaited = .none →
      exec .arbitrationLoss s = .next { s with line := { s.line with slot := .empty } }) ∧
    (∀ p : Post, s.line.slot = .waiting (.post p) → exec .opportunityMissed s = .next s) ∧
    (∀ a : Answer, s.line.slot = .waiting (.answer a) → s.handler.awaited = .none →
      exec .opportunityMissed s = .next { s with line := { s.line with slot := .empty } } ∧
      (s.line.cond = .gap →
        exec .frameStart s = .next { s with line := { s.line.begun with slot := .empty } })) ∧
    ∀ first : TakenFirst, (s.node.state = .active → s.line.txRun < 7) →
      let run := if s.node.state = .active then s.line.txRun + 1 else s.line.txRun
      (∀ p : Post, s.line.slot = .sending (.post p) →
        (s.node.dupSuspect = false → exec (.collision first) s = .next { s with
          line := { s.line with slot := .waiting (.post p), txRun := run }
          node := { s.node with collisionNote := true } }) ∧
        exec (.driveFailure first) s = .next { s with
          line := { s.line with slot := .waiting (.post p), txRun := run } }) ∧
      (∀ a : Answer, s.line.slot = .sending (.answer a) → s.handler.awaited = .none →
        exec (.collision first) s = .next { s with line := { s.line with slot := .empty, txRun := run } } ∧
        exec (.driveFailure first) s = .next { s with line := { s.line with slot := .empty, txRun := run } })

/-- The eighth consecutive failed attempt of an ACTIVE node: TX-ERROR-RUN with detail 1 for a collision and 2 for a drive
failure, then MUTE with count 16, the slot empty, the hold ended, the owed mark, the run and the duplicate marks cleared,
and everything else kept, for a POST and for an ANSWER with no effect awaited, whichever report is taken first (sections
4.5 and 4.6; with an effect awaited: AnswerEndCarriesOutAwaitedEffect). -/
def Obligations.EighthFailureMutesNode : Prop :=
  ∀ (s : State) (first : TakenFirst) (f : TxFrame), s.node.resetHeld = false → s.node.state = .active →
    s.line.txRun = 7 → s.line.slot = .sending f →
    let muted (detail : BitVec 8) : State := { s with
      node := { s.node with state := .mute, setupTimer := none, adoption := .none, silentMarks := 0,
                            listenClaim := false, dupSuspect := false, collisionNote := false }
      line := { s.line with slot := .empty, markHold := false, txRun := 0 }
      round := { s.round with owed := none, muteCount := 16 }
      log := s.log.offer ⟨.txErrorRun, s.round.roundCount, s.own, detail⟩ }
    (∀ p : Post, f = .post p →
      (s.node.dupSuspect = false → exec (.collision first) s = .next (muted 1)) ∧
      exec (.driveFailure first) s = .next (muted 2)) ∧
    (∀ a : Answer, f = .answer a → s.handler.awaited = .none →
      exec (.collision first) s = .next (muted 1) ∧ exec (.driveFailure first) s = .next (muted 2))

/-- When an answer ends in success or is given up, the awaited effect is cleared and carried out: QUIET mutes an ACTIVE node
with its argument, RESTART returns the node to LISTEN, CLOSE-SETUP ends SETUP with detail 1, and CLOSE-SETUP after SETUP
does nothing (section 9.3).
At a collision or a drive failure of the answer the effect is the same, and the attempt counts in ACTIVE unless the effect
has put the run back to 0. Where it completes the run of 8, the node ends in MUTE with the argument of an awaited QUIET, and
with a TX-ERROR-RUN record only if the run is taken first; an awaited RESTART ends in LISTEN in either order, and any mark
hold has then ended if the run was taken first (section 4.6).
At a recognized mark the answer is given up, its effect made before or after the instant, by the order (section 9.3). The
order operand is the model's (log 6). -/
def Obligations.AnswerEndCarriesOutAwaitedEffect : Prop :=
  (∀ (s : State) (c : Instr) (a : Answer), s.node.resetHeld = false →
    (c = .txSuccess ∧ s.line.cond = .frame ∧ s.line.slot = .sending (.answer a)) ∨
      (c = .arbitrationLoss ∧ s.line.slot = .sending (.answer a)) ∨
      (c = .opportunityMissed ∧ s.line.slot = .waiting (.answer a)) ∨
      (c = .frameStart ∧ s.line.cond = .gap ∧ s.line.slot = .waiting (.answer a)) →
    ∃ t, exec c s = .next t ∧ t.line.slot = .empty ∧ t.handler = { s.handler with awaited := .none } ∧
      (∀ n : BitVec 8, s.handler.awaited = .quiet n → s.node.state = .active →
        t.node.state = .mute ∧ t.round = { s.round with owed := none, muteCount := n } ∧ t.line.txRun = 0 ∧
        t.line.markHold = false ∧ t.log = s.log ∧ t.table = s.table ∧ t.groups = s.groups ∧
        t.sampler = s.sampler ∧ t.aux = s.aux) ∧
      (s.handler.awaited = .restart → s.node.state = .listen ∨ s.node.state = .active →
        t.node.state = .listen ∧ t.round.roundCount = 0 ∧ t.round.tag = 0 ∧ t.round.phase = .quietWait ∧
        t.table = Table.cleared ∧ t.groups = Groups.cleared ∧ t.sampler = Sampler.atRelease ∧
        t.log = { records := [⟨.restarted, 0, 0, 0⟩], dropped := 0 }) ∧
      (s.handler.awaited = .closeSetup → s.node.state = .setup → s.own ≠ 63#6 →
        t.node.state = .listen ∧ t.log = s.log.offer ⟨.setupClosed, s.round.roundCount, 0, 1⟩) ∧
      (s.handler.awaited = .closeSetup → s.node.state = .listen →
        t.node = s.node ∧ t.round = s.round ∧ t.log = s.log)) ∧
  (∀ (s : State) (a : Answer) (c : Instr) (first : TakenFirst) (detail : BitVec 8), s.node.resetHeld = false →
    s.line.slot = .sending (.answer a) →
    (c = .collision first ∧ detail = 1) ∨ (c = .driveFailure first ∧ detail = 2) →
    ∃ v, exec .arbitrationLoss s = .next v ∧
      let noted := s.log.offer ⟨.txErrorRun, s.round.roundCount, s.own, detail⟩
      (s.node.state ≠ .active → exec c s = .next v) ∧
      (s.node.state = .active → s.line.txRun < 7 → exec c s = .next (match s.handler.awaited with
        | .none => { v with line := { v.line with txRun := s.line.txRun + 1 } }
        | .closeSetup => { v with line := { v.line with txRun := s.line.txRun + 1 } }
        | .quiet _ => v
        | .restart => v)) ∧
      (s.node.state = .active → s.line.txRun = 7 →
        (∀ n, s.handler.awaited = .quiet n →
          exec c s = .next (if first = .answerReport then v else { v with log := noted })) ∧
        (s.handler.awaited = .restart →
          exec c s = .next (if first = .answerReport then v else { v with line := { v.line with markHold := false } })) ∧
        (s.handler.awaited = .none ∨ s.handler.awaited = .closeSetup → exec c s = .next { v with
          node := { v.node with state := .mute, setupTimer := none, adoption := .none, silentMarks := 0,
                                listenClaim := false, dupSuspect := false, collisionNote := false }
          line := { v.line with markHold := false, txRun := 0 }
          round := { v.round with owed := none, muteCount := 16 }
          log := noted }))) ∧
  (∀ (s : State) (a : Answer) (c : Instr) (first : TakenFirst), s.node.resetHeld = false → s.line.cond = .longHold →
    (c = .arbitrationLoss ∧ s.line.slot = .sending (.answer a)) ∨
      (c = .opportunityMissed ∧ s.line.slot = .waiting (.answer a)) →
    ∃ v w, exec c s = .next v ∧
      exec (.markRecognized first) { s with line := { s.line with slot := .empty } } = .next w ∧
      exec (.markRecognized .answerReport) s = exec (.markRecognized first) v ∧
      (s.handler.awaited = .none → exec (.markRecognized .otherReport) s = .next w) ∧
      (s.handler.awaited = .closeSetup → s.node.state ≠ .setup →
        exec (.markRecognized .otherReport) s = .next { w with handler := { s.handler with awaited := .none } }) ∧
      ((∃ n, s.handler.awaited = .quiet n) ∨ s.handler.awaited = .restart ∨
          (s.handler.awaited = .closeSetup ∧ s.node.state = .setup) →
        exec (.markRecognized .otherReport) s =
          exec .opportunityMissed { w with line := { w.line with slot := .waiting (.answer a) } }))

/-! ### Timers and mark claims (sections 3.1, 3.2, 4.4 and 4.6) -/

/-- EPOCH_TIMER_EXPIRY: the timer is reloaded with P; in LISTEN and BARRED and in a listener that is all, and MUTE counts
down; an ACTIVE sampling node claims a mark, as does MUTE at its last count, and LISTEN_TIMER_EXPIRY claims in LISTEN. A
claim originates on a quiet line, joins a LONG-HOLD, and else owes the mark with the first cause that applies. While the
node holds a mark the claim is not made, in any of the three states (section 3.1); nor is one while a mark is owed.
That a claim made while a mark is owed changes nothing at all, no join included, is deduced (log 16); the condition FRAME
of a hold from OPEN is deduced (log 12). -/
def Obligations.ExpiriesClaimMarks : Prop :=
  ∀ s : State, s.node.resetHeld = false →
    let settled (u : State) : State :=
      if u.line.cond = .opened ∧ u.line.window = false ∧ 96 ≤ u.line.releasedRun then { u with
        line := { u.line.begun with markHold := true }
        round := { u.round with marksOriginated := satInc u.round.marksOriginated } }
      else if u.line.cond = .longHold ∧ u.line.window = false then { u with
        line := { u.line with markHold := true }
        round := { u.round with marksOriginated := satInc u.round.marksOriginated } }
      else { u with round := { u.round with owed := some (
        if u.line.window = true then .window
        else if u.line.cond = .marked then .marked
        else if u.line.cond = .frame ∨ u.line.cond = .gap then .frameOrGap
        else if u.line.cond = .resync then .resync
        else .opened) } }
    let reloaded : State := { s with round := { s.round with epochTimer := some s.period } }
    let unmuted : State := { reloaded with
      node := { s.node with state := .active, adoption := .none, silentMarks := 0, listenClaim := false }
      round := { reloaded.round with muteCount := 0, listenTimer := none } }
    let flagged : State := { s with
      node := { s.node with listenClaim := true }
      round := { s.round with
        listenTimer := some (Config.periodClocks s.node.straps.period * (128 + s.own.toNat) / 64) } }
    (s.round.epochTimer.isSome = true →
      s.node.state = .listen ∨ s.node.state = .barred ∨ (s.node.state = .active ∧ s.sampling = false) →
      exec .epochTimerExpiry s = .next reloaded) ∧
    (s.round.epochTimer.isSome = true → s.node.state = .mute → 2 ≤ s.round.muteCount.toNat →
      exec .epochTimerExpiry s = .next { reloaded with round :=
        { reloaded.round with muteCount := s.round.muteCount - 1 } }) ∧
    (s.sampling = true → s.line.markHold = false → s.round.owed = none →
      (s.round.epochTimer.isSome = true → s.node.state = .active →
        exec .epochTimerExpiry s = .next (settled reloaded)) ∧
      (s.round.epochTimer.isSome = true → s.node.state = .mute → s.round.muteCount = 1 →
        exec .epochTimerExpiry s = .next (settled unmuted)) ∧
      (s.round.listenTimer.isSome = true → s.node.state = .listen →
        exec .listenTimerExpiry s = .next (settled flagged))) ∧
    (s.line.markHold = true ∨ s.round.owed.isSome = true →
      (s.round.epochTimer.isSome = true → s.node.state = .active → exec .epochTimerExpiry s = .next reloaded) ∧
      (s.round.epochTimer.isSome = true → s.node.state = .mute → s.round.muteCount = 1 →
        exec .epochTimerExpiry s = .next unmuted) ∧
      (s.round.listenTimer.isSome = true → s.node.state = .listen → s.sampling = true →
        exec .listenTimerExpiry s = .next flagged))

/-! ### Rules over all commands -/

/-- A record leaves the log only by ACK_EVENTS, by a reset or by RESTART, which leaves RESTARTED alone; every other command
keeps the records held, in their order, at the front (section 10.3). -/
def Obligations.LogOnlyGrowsBetweenAcknowledgements : Prop :=
  ∀ (c : Instr) (s t : State), exec c s = .next t → c ≠ .resetAsserted → (∀ straps held, c ≠ .resetRelease straps held) →
    (∀ octets, c ≠ .ackEvents octets) →
    s.log.records <+: t.log.records ∨
      (t.log = { records := [⟨.restarted, 0, 0, 0⟩], dropped := 0 } ∧ t.node.state = .listen)

/-- A saturating counter stops at its maximum; an offered record is stored at the end of a log that holds fewer than 16, and
else dropped and counted up to 255 (section 6.1 of the scope file, sections 10.3 and 10.4). -/
def Obligations.LogAndCountersStopAtTheirMaximum : Prop :=
  (∀ (l : EventLog) (r : EventRecord),
     (l.records.length < 16 → l.offer r = { records := l.records ++ [r], dropped := l.dropped }) ∧
     (l.records.length = 16 → (l.offer r).records = l.records ∧
       (l.offer r).dropped.toNat = min 255 (l.dropped.toNat + 1))) ∧
  (∀ (w : Nat) (c : BitVec w) (n : Nat), (satAdd c n).toNat = min (2 ^ w - 1) (c.toNat + n) ∧ satInc c = satAdd c 1)

/-- The configuration store changes only in SETUP, at a CONFIGURE row, or at a reset; the straps change only at a reset; BARRED
is left, and SETUP entered, only by a reset; the round count moves by 1 at a recognized mark, returns to 0 by a reset or by
RESTART, which leaves LISTEN and a log of RESTARTED alone, and moves in no other way; it is 1 after a mark whose given-up
answer carried out a RESTART before the instant (sections 3.3, 4.1, 4.7, 9.3 and 9.6; the order operand is the model's,
log 6). -/
def Obligations.StoreStrapsBarredAndRoundCountMoveByRule : Prop :=
  (∀ (c : Instr) (s t : State), exec c s = .next t → c ≠ .resetAsserted →
     (∀ straps held, c ≠ .resetRelease straps held) →
     t.node.straps = s.node.straps ∧ (s.node.state = .barred → t.node.state = .barred) ∧
     (t.node.state = .setup → s.node.state = .setup) ∧
     (t.handler.store ≠ s.handler.store → s.node.state = .setup ∧
       ∃ octets, c = .configurePlan octets ∨ c = .configureCal octets ∨ c = .configureLimits octets)) ∧
  (∀ (c : Instr) (s t : State), exec c s = .next t →
     t.round.roundCount = s.round.roundCount ∨
     (t.round.roundCount = s.round.roundCount + 1 ∧ ∃ first, c = .markRecognized first) ∨
     (t.round.roundCount = 0 ∧ (c = .resetAsserted ∨ (∃ straps held, c = .resetRelease straps held) ∨
       (t.node.state = .listen ∧ t.log = { records := [⟨.restarted, 0, 0, 0⟩], dropped := 0 }))) ∨
     (t.round.roundCount = 1 ∧ c = .markRecognized .answerReport ∧ s.handler.awaited = .restart ∧
       s.line.slot.hasAnswer = true ∧ t.node.state = .listen ∧
       t.log = { records := [⟨.restarted, 0, 0, 0⟩], dropped := 0 }))

/-! ### Invariants that every step keeps -/

/-- The invariants below hold right after reset. -/
def Obligations.InvariantsHoldAtReset : Prop :=
  ∀ (straps : Straps) (held pin : Bool) (s : State), s = State.atRelease straps held pin ∨ s = State.reset →
    s.LogBounded ∧ s.IntakeOk ∧ s.PostOk ∧ s.RunOk ∧ s.SilentOk ∧ s.MeasuringOk ∧ s.StoreOk ∧ s.AlarmOk ∧
    s.EntriesOk ∧ s.RecordsOk ∧ s.PhaseOk ∧ s.TimersOk ∧ s.MuteOk ∧ s.ReceiverOk ∧ s.AdoptionOk

/-- The log holds at most 16 records, and its dropped counter is non-zero only while it holds 16; the intake list holds one post
of each source, from sources 1..62. -/
def Obligations.StepKeepsLogAndIntakeBounded : Prop :=
  (∀ s t : State, s.LogBounded → step s = .next t → t.LogBounded) ∧
  (∀ s t : State, s.IntakeOk → step s = .next t → t.IntakeOk)

/-- A POST in the slot is the node's own, in ACTIVE, and carries the epoch tag minus 1. -/
def Obligations.StepKeepsPostOk : Prop :=
  ∀ s t : State, s.PostOk → step s = .next t → t.PostOk

/-- The transmit error run stays in 0..8, at 8 in BARRED only; a node in MUTE or BARRED, and a listener, drives no line;
measurements are in flight, and the coil is driven, in a sampling node in ACTIVE or MUTE only. -/
def Obligations.StepKeepsMutedNodesSilent : Prop :=
  (∀ s t : State, step s = .next t →
     (s.RunOk → t.RunOk) ∧ (s.SilentOk → t.SilentOk) ∧
     (t.SilentOk → t.node.state = .mute ∨ t.node.state = .barred ∨ t.sampling = false → t.drivesLine = false)) ∧
  (∀ s t : State, s.MeasuringOk → step s = .next t → t.MeasuringOk ∧ (t.drivesCoil = true → t.samples = true))

/-- Every configured field stays in its range, low below high, hysteresis within their difference, and the digest is the
check of the image. -/
def Obligations.StepKeepsStoreOk : Prop :=
  ∀ s t : State, s.StoreOk → step s = .next t → t.StoreOk

/-- ALARM is the condition of the limit states and incomplete runs, an unwatched group is NORMAL, in SETUP and LISTEN the
aggregator is cleared; every group record has minimum ≤ mean ≤ maximum, or no contributor, sum 0 and none of the three. -/
def Obligations.StepKeepsAlarmAndRecordsOk : Prop :=
  (∀ s t : State, s.AlarmOk → step s = .next t → t.AlarmOk) ∧
  (∀ s t : State, s.RecordsOk → step s = .next t → t.RecordsOk)

/-- The miss run of every entry is as its state and the lapse limit say, and in SETUP and LISTEN every entry is VACANT. -/
def Obligations.StepKeepsEntriesOk : Prop :=
  ∀ s t : State, s.EntriesOk → step s = .next t → t.EntriesOk

/-- EPOCH is asserted exactly in MARK; the epoch timer runs everywhere but in SETUP, the listen timer in LISTEN in a sampling
node only, the setup timer in SETUP only (given that no POST is in the slot outside ACTIVE, which every step keeps); a muted
node has rounds left to count, a frame is being received in FRAME or its LONG-HOLD only, and outside LISTEN the adoption
state is NONE with no silent mark and no listen claim. -/
def Obligations.StepKeepsPhaseTimersAndFlags : Prop :=
  (∀ s t : State, step s = .next t → (s.PhaseOk → t.PhaseOk) ∧ (s.PostOk → s.TimersOk → t.TimersOk)) ∧
  (∀ s t : State, step s = .next t →
     (s.MuteOk → t.MuteOk) ∧ (s.ReceiverOk → t.ReceiverOk) ∧ (s.AdoptionOk → t.AdoptionOk))

end Statements
end

