-- ==== Sys2Proof/Laws/State.lean ====
section
/-! SUPPORT. One lemma per field and update of `State`, so that no proof unfolds a record update. -/

namespace Sys2Proof.Machine.State

/-! ### `withNode` -/

@[simp] theorem node_withNode (s : State) (x : Node) : (s.withNode x).node = x := rfl
@[simp] theorem line_withNode (s : State) (x : Node) : (s.withNode x).line = s.line := rfl
@[simp] theorem round_withNode (s : State) (x : Node) : (s.withNode x).round = s.round := rfl
@[simp] theorem sampler_withNode (s : State) (x : Node) : (s.withNode x).sampler = s.sampler := rfl
@[simp] theorem aux_withNode (s : State) (x : Node) : (s.withNode x).aux = s.aux := rfl
@[simp] theorem table_withNode (s : State) (x : Node) : (s.withNode x).table = s.table := rfl
@[simp] theorem groups_withNode (s : State) (x : Node) : (s.withNode x).groups = s.groups := rfl
@[simp] theorem handler_withNode (s : State) (x : Node) : (s.withNode x).handler = s.handler := rfl
@[simp] theorem log_withNode (s : State) (x : Node) : (s.withNode x).log = s.log := rfl
@[simp] theorem pending_withNode (s : State) (x : Node) : (s.withNode x).pending = s.pending := rfl
@[simp] theorem withNode_withNode (s : State) (x y : Node) : (s.withNode x).withNode y = s.withNode y := rfl
@[simp] theorem withNode_self (s : State) : s.withNode s.node = s := rfl

/-! ### `withLine` -/

@[simp] theorem node_withLine (s : State) (x : Line) : (s.withLine x).node = s.node := rfl
@[simp] theorem line_withLine (s : State) (x : Line) : (s.withLine x).line = x := rfl
@[simp] theorem round_withLine (s : State) (x : Line) : (s.withLine x).round = s.round := rfl
@[simp] theorem sampler_withLine (s : State) (x : Line) : (s.withLine x).sampler = s.sampler := rfl
@[simp] theorem aux_withLine (s : State) (x : Line) : (s.withLine x).aux = s.aux := rfl
@[simp] theorem table_withLine (s : State) (x : Line) : (s.withLine x).table = s.table := rfl
@[simp] theorem groups_withLine (s : State) (x : Line) : (s.withLine x).groups = s.groups := rfl
@[simp] theorem handler_withLine (s : State) (x : Line) : (s.withLine x).handler = s.handler := rfl
@[simp] theorem log_withLine (s : State) (x : Line) : (s.withLine x).log = s.log := rfl
@[simp] theorem pending_withLine (s : State) (x : Line) : (s.withLine x).pending = s.pending := rfl
@[simp] theorem withLine_withLine (s : State) (x y : Line) : (s.withLine x).withLine y = s.withLine y := rfl
@[simp] theorem withLine_self (s : State) : s.withLine s.line = s := rfl

/-! ### `withRound` -/

@[simp] theorem node_withRound (s : State) (x : Round) : (s.withRound x).node = s.node := rfl
@[simp] theorem line_withRound (s : State) (x : Round) : (s.withRound x).line = s.line := rfl
@[simp] theorem round_withRound (s : State) (x : Round) : (s.withRound x).round = x := rfl
@[simp] theorem sampler_withRound (s : State) (x : Round) : (s.withRound x).sampler = s.sampler := rfl
@[simp] theorem aux_withRound (s : State) (x : Round) : (s.withRound x).aux = s.aux := rfl
@[simp] theorem table_withRound (s : State) (x : Round) : (s.withRound x).table = s.table := rfl
@[simp] theorem groups_withRound (s : State) (x : Round) : (s.withRound x).groups = s.groups := rfl
@[simp] theorem handler_withRound (s : State) (x : Round) : (s.withRound x).handler = s.handler := rfl
@[simp] theorem log_withRound (s : State) (x : Round) : (s.withRound x).log = s.log := rfl
@[simp] theorem pending_withRound (s : State) (x : Round) : (s.withRound x).pending = s.pending := rfl
@[simp] theorem withRound_withRound (s : State) (x y : Round) : (s.withRound x).withRound y = s.withRound y := rfl
@[simp] theorem withRound_self (s : State) : s.withRound s.round = s := rfl

/-! ### `withSampler` -/

@[simp] theorem node_withSampler (s : State) (x : Sampler) : (s.withSampler x).node = s.node := rfl
@[simp] theorem line_withSampler (s : State) (x : Sampler) : (s.withSampler x).line = s.line := rfl
@[simp] theorem round_withSampler (s : State) (x : Sampler) : (s.withSampler x).round = s.round := rfl
@[simp] theorem sampler_withSampler (s : State) (x : Sampler) : (s.withSampler x).sampler = x := rfl
@[simp] theorem aux_withSampler (s : State) (x : Sampler) : (s.withSampler x).aux = s.aux := rfl
@[simp] theorem table_withSampler (s : State) (x : Sampler) : (s.withSampler x).table = s.table := rfl
@[simp] theorem groups_withSampler (s : State) (x : Sampler) : (s.withSampler x).groups = s.groups := rfl
@[simp] theorem handler_withSampler (s : State) (x : Sampler) : (s.withSampler x).handler = s.handler := rfl
@[simp] theorem log_withSampler (s : State) (x : Sampler) : (s.withSampler x).log = s.log := rfl
@[simp] theorem pending_withSampler (s : State) (x : Sampler) : (s.withSampler x).pending = s.pending := rfl
@[simp] theorem withSampler_withSampler (s : State) (x y : Sampler) : (s.withSampler x).withSampler y = s.withSampler y := rfl
@[simp] theorem withSampler_self (s : State) : s.withSampler s.sampler = s := rfl

/-! ### `withAux` -/

@[simp] theorem node_withAux (s : State) (x : Aux) : (s.withAux x).node = s.node := rfl
@[simp] theorem line_withAux (s : State) (x : Aux) : (s.withAux x).line = s.line := rfl
@[simp] theorem round_withAux (s : State) (x : Aux) : (s.withAux x).round = s.round := rfl
@[simp] theorem sampler_withAux (s : State) (x : Aux) : (s.withAux x).sampler = s.sampler := rfl
@[simp] theorem aux_withAux (s : State) (x : Aux) : (s.withAux x).aux = x := rfl
@[simp] theorem table_withAux (s : State) (x : Aux) : (s.withAux x).table = s.table := rfl
@[simp] theorem groups_withAux (s : State) (x : Aux) : (s.withAux x).groups = s.groups := rfl
@[simp] theorem handler_withAux (s : State) (x : Aux) : (s.withAux x).handler = s.handler := rfl
@[simp] theorem log_withAux (s : State) (x : Aux) : (s.withAux x).log = s.log := rfl
@[simp] theorem pending_withAux (s : State) (x : Aux) : (s.withAux x).pending = s.pending := rfl
@[simp] theorem withAux_withAux (s : State) (x y : Aux) : (s.withAux x).withAux y = s.withAux y := rfl
@[simp] theorem withAux_self (s : State) : s.withAux s.aux = s := rfl

/-! ### `withTable` -/

@[simp] theorem node_withTable (s : State) (x : Table) : (s.withTable x).node = s.node := rfl
@[simp] theorem line_withTable (s : State) (x : Table) : (s.withTable x).line = s.line := rfl
@[simp] theorem round_withTable (s : State) (x : Table) : (s.withTable x).round = s.round := rfl
@[simp] theorem sampler_withTable (s : State) (x : Table) : (s.withTable x).sampler = s.sampler := rfl
@[simp] theorem aux_withTable (s : State) (x : Table) : (s.withTable x).aux = s.aux := rfl
@[simp] theorem table_withTable (s : State) (x : Table) : (s.withTable x).table = x := rfl
@[simp] theorem groups_withTable (s : State) (x : Table) : (s.withTable x).groups = s.groups := rfl
@[simp] theorem handler_withTable (s : State) (x : Table) : (s.withTable x).handler = s.handler := rfl
@[simp] theorem log_withTable (s : State) (x : Table) : (s.withTable x).log = s.log := rfl
@[simp] theorem pending_withTable (s : State) (x : Table) : (s.withTable x).pending = s.pending := rfl
@[simp] theorem withTable_withTable (s : State) (x y : Table) : (s.withTable x).withTable y = s.withTable y := rfl
@[simp] theorem withTable_self (s : State) : s.withTable s.table = s := rfl

/-! ### `withGroups` -/

@[simp] theorem node_withGroups (s : State) (x : Groups) : (s.withGroups x).node = s.node := rfl
@[simp] theorem line_withGroups (s : State) (x : Groups) : (s.withGroups x).line = s.line := rfl
@[simp] theorem round_withGroups (s : State) (x : Groups) : (s.withGroups x).round = s.round := rfl
@[simp] theorem sampler_withGroups (s : State) (x : Groups) : (s.withGroups x).sampler = s.sampler := rfl
@[simp] theorem aux_withGroups (s : State) (x : Groups) : (s.withGroups x).aux = s.aux := rfl
@[simp] theorem table_withGroups (s : State) (x : Groups) : (s.withGroups x).table = s.table := rfl
@[simp] theorem groups_withGroups (s : State) (x : Groups) : (s.withGroups x).groups = x := rfl
@[simp] theorem handler_withGroups (s : State) (x : Groups) : (s.withGroups x).handler = s.handler := rfl
@[simp] theorem log_withGroups (s : State) (x : Groups) : (s.withGroups x).log = s.log := rfl
@[simp] theorem pending_withGroups (s : State) (x : Groups) : (s.withGroups x).pending = s.pending := rfl
@[simp] theorem withGroups_withGroups (s : State) (x y : Groups) : (s.withGroups x).withGroups y = s.withGroups y := rfl
@[simp] theorem withGroups_self (s : State) : s.withGroups s.groups = s := rfl

/-! ### `withHandler` -/

@[simp] theorem node_withHandler (s : State) (x : Handler) : (s.withHandler x).node = s.node := rfl
@[simp] theorem line_withHandler (s : State) (x : Handler) : (s.withHandler x).line = s.line := rfl
@[simp] theorem round_withHandler (s : State) (x : Handler) : (s.withHandler x).round = s.round := rfl
@[simp] theorem sampler_withHandler (s : State) (x : Handler) : (s.withHandler x).sampler = s.sampler := rfl
@[simp] theorem aux_withHandler (s : State) (x : Handler) : (s.withHandler x).aux = s.aux := rfl
@[simp] theorem table_withHandler (s : State) (x : Handler) : (s.withHandler x).table = s.table := rfl
@[simp] theorem groups_withHandler (s : State) (x : Handler) : (s.withHandler x).groups = s.groups := rfl
@[simp] theorem handler_withHandler (s : State) (x : Handler) : (s.withHandler x).handler = x := rfl
@[simp] theorem log_withHandler (s : State) (x : Handler) : (s.withHandler x).log = s.log := rfl
@[simp] theorem pending_withHandler (s : State) (x : Handler) : (s.withHandler x).pending = s.pending := rfl
@[simp] theorem withHandler_withHandler (s : State) (x y : Handler) : (s.withHandler x).withHandler y = s.withHandler y := rfl
@[simp] theorem withHandler_self (s : State) : s.withHandler s.handler = s := rfl

/-! ### `withLog` -/

@[simp] theorem node_withLog (s : State) (x : EventLog) : (s.withLog x).node = s.node := rfl
@[simp] theorem line_withLog (s : State) (x : EventLog) : (s.withLog x).line = s.line := rfl
@[simp] theorem round_withLog (s : State) (x : EventLog) : (s.withLog x).round = s.round := rfl
@[simp] theorem sampler_withLog (s : State) (x : EventLog) : (s.withLog x).sampler = s.sampler := rfl
@[simp] theorem aux_withLog (s : State) (x : EventLog) : (s.withLog x).aux = s.aux := rfl
@[simp] theorem table_withLog (s : State) (x : EventLog) : (s.withLog x).table = s.table := rfl
@[simp] theorem groups_withLog (s : State) (x : EventLog) : (s.withLog x).groups = s.groups := rfl
@[simp] theorem handler_withLog (s : State) (x : EventLog) : (s.withLog x).handler = s.handler := rfl
@[simp] theorem log_withLog (s : State) (x : EventLog) : (s.withLog x).log = x := rfl
@[simp] theorem pending_withLog (s : State) (x : EventLog) : (s.withLog x).pending = s.pending := rfl
@[simp] theorem withLog_withLog (s : State) (x y : EventLog) : (s.withLog x).withLog y = s.withLog y := rfl
@[simp] theorem withLog_self (s : State) : s.withLog s.log = s := rfl

/-! ### `withPending` -/

@[simp] theorem node_withPending (s : State) (x : List Instr) : (s.withPending x).node = s.node := rfl
@[simp] theorem line_withPending (s : State) (x : List Instr) : (s.withPending x).line = s.line := rfl
@[simp] theorem round_withPending (s : State) (x : List Instr) : (s.withPending x).round = s.round := rfl
@[simp] theorem sampler_withPending (s : State) (x : List Instr) : (s.withPending x).sampler = s.sampler := rfl
@[simp] theorem aux_withPending (s : State) (x : List Instr) : (s.withPending x).aux = s.aux := rfl
@[simp] theorem table_withPending (s : State) (x : List Instr) : (s.withPending x).table = s.table := rfl
@[simp] theorem groups_withPending (s : State) (x : List Instr) : (s.withPending x).groups = s.groups := rfl
@[simp] theorem handler_withPending (s : State) (x : List Instr) : (s.withPending x).handler = s.handler := rfl
@[simp] theorem log_withPending (s : State) (x : List Instr) : (s.withPending x).log = s.log := rfl
@[simp] theorem pending_withPending (s : State) (x : List Instr) : (s.withPending x).pending = x := rfl
@[simp] theorem withPending_withPending (s : State) (x y : List Instr) : (s.withPending x).withPending y = s.withPending y := rfl
@[simp] theorem withPending_self (s : State) : s.withPending s.pending = s := rfl

end Sys2Proof.Machine.State
end

