-- ==== Sys2Proof/Laws/Ops.lean ====
section
/-! SUPPORT. One lemma per shared operation of Sys2Proof/Machine/Ops.lean: all that it can do. -/

namespace Sys2Proof.Machine

/-! ### The gate of RESET -/

theorem State.unlessReset_of_clear {s : State} (t : State) (h : s.node.resetHeld = false) : s.unlessReset t = t := by
  simp [State.unlessReset, h]

theorem State.unlessReset_of_held {s : State} (t : State) (h : s.node.resetHeld = true) : s.unlessReset t = s := by
  simp [State.unlessReset, h]

/-! ### The event log -/

/-- The log never loses a record to an offer and grows by at most one. -/
theorem EventLog.offer_records (l : EventLog) (r : EventRecord) :
    (l.offer r).records = l.records ++ [r] ∨ (l.offer r).records = l.records := by
  unfold EventLog.offer; split <;> simp

theorem EventLog.prefix_offer (l : EventLog) (r : EventRecord) : l.records <+: (l.offer r).records := by
  rcases l.offer_records r with h | h <;> simp [h]

theorem EventLog.length_offer_le (l : EventLog) (r : EventRecord) (h : l.records.length ≤ 16) :
    (l.offer r).records.length ≤ 16 := by
  unfold EventLog.offer Config.logCapacity
  split
  · simp; omega
  · simpa using h

/-- The dropped counter moves only when the log stays full. -/
theorem EventLog.dropped_offer (l : EventLog) (r : EventRecord) (h : l.records.length < 16) :
    (l.offer r).dropped = l.dropped := by
  simp [EventLog.offer, Config.logCapacity, h]

/-- A list of records offered with one round count. -/
def EventLog.offerMany (l : EventLog) (count : BitVec 16) (rs : List (EventKind × BitVec 6 × BitVec 8)) : EventLog :=
  rs.foldl (fun l r => l.offer { kind := r.1, roundCount := count, station := r.2.1, detail := r.2.2 }) l

theorem EventLog.prefix_offerMany (l : EventLog) (count : BitVec 16) (rs : List (EventKind × BitVec 6 × BitVec 8)) :
    l.records <+: (l.offerMany count rs).records := by
  induction rs generalizing l with
  | nil => simp [EventLog.offerMany]
  | cons r rs ih => exact (l.prefix_offer _).trans (ih _)

theorem EventLog.length_offerMany_le (l : EventLog) (count : BitVec 16) (rs : List (EventKind × BitVec 6 × BitVec 8))
    (h : l.records.length ≤ 16) : (l.offerMany count rs).records.length ≤ 16 := by
  induction rs generalizing l with
  | nil => simpa [EventLog.offerMany] using h
  | cons r rs ih => exact ih _ (l.length_offer_le _ h)

theorem State.offer_eq (s : State) (kind : EventKind) (station : BitVec 6) (detail : BitVec 8) :
    s.offer kind station detail =
      s.withLog (s.log.offer { kind := kind, roundCount := s.round.roundCount, station := station, detail := detail }) :=
  rfl

/-- Offering several records changes the log alone. -/
theorem State.offerAll_eq (s : State) (rs : List (EventKind × BitVec 6 × BitVec 8)) :
    s.offerAll rs = s.withLog (s.log.offerMany s.round.roundCount rs) := by
  induction rs generalizing s with
  | nil => rfl
  | cons r rs ih =>
    show (s.offer r.1 r.2.1 r.2.2).offerAll rs = _
    rw [ih]; rfl

theorem State.offerAll_append (s : State) (as bs : List (EventKind × BitVec 6 × BitVec 8)) :
    s.offerAll (as ++ bs) = (s.offerAll as).offerAll bs := by
  simp [State.offerAll, List.foldl_append]

/-! ### The slot -/

theorem State.setSlot_eq (s : State) (slot : Slot) : s.setSlot slot = s.withLine { s.line with slot := slot } := rfl

/-- A frame placed in the slot touches the line alone: SENDING from OPEN, WAITING from any other condition. -/
theorem State.placeFrame_eq (s : State) (f : TxFrame) :
    s.placeFrame f = s.withLine (s.placeFrame f).line ∧
    (s.line.cond = .opened → (s.placeFrame f).line.slot = .sending f ∧ (s.placeFrame f).line.cond = .frame) ∧
    (s.line.cond ≠ .opened → (s.placeFrame f).line = { s.line with slot := .waiting f }) := by
  unfold State.placeFrame
  by_cases h : s.line.cond = .opened <;> simp [h, State.startFrame, State.setSlot, State.withLine]

/-! ### Mark claims -/

/-- A claim changes nothing, originates, joins or owes. -/
theorem State.claimMark_cases (s : State) :
    s.claimMark = s ∨
    (s.line.quiet = true ∧ s.claimMark = s.originateMark) ∨
    (s.line.cond = .longHold ∧ s.line.window = false ∧ s.claimMark = s.joinMark) ∨
    (s.line.quiet = false ∧ s.claimMark = s.oweMark) := by
  unfold State.claimMark
  split
  · simp
  · split
    · simp_all
    · split <;> simp_all

/-- A listener makes no claim, and none is made while a mark is held or owed. -/
theorem State.claimMark_eq_self {s : State}
    (h : s.sampling = false ∨ s.line.markHold = true ∨ s.round.owed.isSome = true) : s.claimMark = s := by
  rcases h with h | h | h <;> simp [State.claimMark, h]

/-- A claim touches the line and the round controller alone. -/
theorem State.claimMark_eq (s : State) : s.claimMark = (s.withLine s.claimMark.line).withRound s.claimMark.round := by
  rcases s.claimMark_cases with h | ⟨_, h⟩ | ⟨_, _, h⟩ | ⟨_, h⟩ <;> rw [h] <;> rfl

/-- A claim keeps the slot, the timers, the counts but one, the tag and the phase. -/
theorem State.claimMark_frame (s : State) :
    s.claimMark.line.slot = s.line.slot ∧ s.claimMark.round.epochTimer = s.round.epochTimer ∧
    s.claimMark.round.listenTimer = s.round.listenTimer ∧ s.claimMark.round.roundCount = s.round.roundCount ∧
    s.claimMark.round.tag = s.round.tag ∧ s.claimMark.round.phase = s.round.phase ∧
    s.claimMark.round.epochOut = s.round.epochOut ∧ s.claimMark.round.muteCount = s.round.muteCount := by
  rcases s.claimMark_cases with h | ⟨_, h⟩ | ⟨_, _, h⟩ | ⟨_, h⟩ <;> rw [h] <;>
    simp [State.originateMark, State.joinMark, State.oweMark, Line.originate]

/-! ### Entries to the node states -/

/-- Entry to LISTEN touches the node state machine and two timers. -/
theorem State.enterListen_eq (s : State) :
    s.enterListen =
      (s.withNode { s.node with state := .listen, setupTimer := none, adoption := .none, silentMarks := 0,
                                listenClaim := false }).withRound
        { s.round with epochTimer := some s.period, listenTimer := s.listenLoad } := rfl

/-- The exit from SETUP is entry to LISTEN with records in the log. -/
theorem State.exitSetup_eq (s : State) (detail : BitVec 8) :
    s.exitSetup detail = s.enterListen.withLog (s.exitSetup detail).log ∧
    s.log.records <+: (s.exitSetup detail).log.records := by
  unfold State.exitSetup
  by_cases h : s.own = 63#6
  · simp only [h, ↓reduceIte]
    exact ⟨rfl, (EventLog.prefix_offer _ _).trans (EventLog.prefix_offer _ _)⟩
  · simp only [h, ↓reduceIte]
    exact ⟨rfl, EventLog.prefix_offer _ _⟩

/-- What entry to MUTE without an ANSWER in the slot does: node, line and controller alone. -/
theorem State.muteEntry_eq (s : State) (count : BitVec 8) :
    s.muteEntry count =
      ((s.withLine { s.line with slot := .empty, markHold := false, txRun := 0 }).withRound
        { s.round with owed := none, muteCount := count }).withNode (s.node.standAside .mute) := rfl

/-- What entry to BARRED keeps: the tables, the groups, the store, the counts, the pins of the straps and the queue. -/
theorem State.enterBarred_frame (s : State) (tag : BitVec 8) :
    (s.enterBarred tag).table = s.table ∧ (s.enterBarred tag).groups = s.groups ∧
    (s.enterBarred tag).handler = { s.handler with awaited := .none } ∧
    (s.enterBarred tag).round = { s.round with owed := none } ∧
    (s.enterBarred tag).node = s.node.standAside .barred ∧
    (s.enterBarred tag).pending = s.pending := ⟨rfl, rfl, rfl, rfl, rfl, rfl⟩

/-- What RESTART keeps: the straps, the store and its digest, the line but for slot and counters, and the queue. -/
theorem State.restartEffect_frame (s : State) :
    s.restartEffect.node.straps = s.node.straps ∧ s.restartEffect.node.state = .listen ∧
    s.restartEffect.handler = { s.handler with awaited := .none } ∧
    s.restartEffect.line = { s.line with slot := .empty, txRun := 0, rxErrors := 0 } ∧
    s.restartEffect.pending = s.pending := ⟨rfl, rfl, rfl, rfl, rfl⟩

/-- Every effect keeps the straps, the store, its digest and the queue, and never leads into SETUP, ACTIVE or BARRED. -/
theorem State.carryOut_frame (s : State) (effect : Awaited) :
    (s.carryOut effect).node.straps = s.node.straps ∧ (s.carryOut effect).handler.store = s.handler.store ∧
    (s.carryOut effect).handler.digest = s.handler.digest ∧ (s.carryOut effect).pending = s.pending ∧
    ((s.carryOut effect).node.state = s.node.state ∨ (s.carryOut effect).node.state = .mute ∨
      (s.carryOut effect).node.state = .listen) := by
  cases effect with
  | none => simp [State.carryOut]
  | quiet n => unfold State.carryOut; cases h : s.node.state <;> simp [h, State.muteEntry, State.silence, Node.standAside]
  | restart => unfold State.carryOut; cases h : s.node.state <;> simp [h, State.restartEffect, State.enterListen]
  | closeSetup =>
    unfold State.carryOut
    cases h : s.node.state <;> simp only [h, State.exitSetup, State.enterListen] <;> (try split) <;>
      simp [State.offer]

/-- An effect leaves every record in the log, but for RESTART, which leaves RESTARTED alone. -/
theorem State.carryOut_log (s : State) (effect : Awaited) :
    s.log.records <+: (s.carryOut effect).log.records ∨
      ((s.carryOut effect).log = { records := [⟨.restarted, 0, 0, 0⟩], dropped := 0 } ∧
        (s.carryOut effect).node.state = .listen) := by
  cases effect with
  | none => left; simp [State.carryOut]
  | quiet n => left; unfold State.carryOut; cases h : s.node.state <;> simp [State.muteEntry, State.silence]
  | restart => unfold State.carryOut; cases h : s.node.state <;> simp [State.restartEffect, State.enterListen]
  | closeSetup =>
    left; unfold State.carryOut
    cases h : s.node.state <;> simp only [] <;>
      first
        | exact (s.exitSetup_eq 1).2
        | exact List.prefix_refl _

/-- An awaited effect keeps the round count, or is RESTART: the count at 0 in LISTEN, with RESTARTED alone in the log. -/
theorem State.carryOut_roundCount (s : State) (effect : Awaited) :
    (s.carryOut effect).round.roundCount = s.round.roundCount ∨
    (effect = .restart ∧ (s.carryOut effect).round.roundCount = 0 ∧ (s.carryOut effect).node.state = .listen ∧
      (s.carryOut effect).log = { records := [⟨.restarted, 0, 0, 0⟩], dropped := 0 }) := by
  cases effect with
  | none => exact .inl rfl
  | quiet n => left; unfold State.carryOut; cases s.node.state <;> simp [State.muteEntry, State.silence]
  | restart =>
    unfold State.carryOut
    cases s.node.state <;> simp [State.restartEffect, State.enterListen, Round.atRelease]
  | closeSetup =>
    left; unfold State.carryOut
    cases s.node.state
    case setup => exact congrArg (·.round.roundCount) (s.exitSetup_eq 1).1
    all_goals rfl

/-- The end of an answer clears the awaited effect, whatever it was. -/
theorem State.answerEnded_eq (s : State) :
    s.answerEnded = (s.withHandler { s.handler with awaited := .none }).carryOut s.handler.awaited := rfl

theorem State.answerEnded_of_none {s : State} (h : s.handler.awaited = .none) : s.answerEnded = s := by
  rcases s with ⟨_, _, _, _, _, _, _, ⟨_, _, _⟩, _, _⟩
  cases h
  rfl

/-- In SETUP, LISTEN and ACTIVE an answer enters an EMPTY slot with its effect awaited; it is dropped, and the effect
follows at once, in MUTE, in BARRED and at a slot that is not EMPTY. -/
theorem State.offerAnswer_cases (s : State) (a : Answer) (effect : Awaited) :
    (s.line.slot = .empty ∧ s.node.state ≠ .mute ∧ s.node.state ≠ .barred ∧
      s.offerAnswer a effect = (s.withHandler { s.handler with awaited := effect }).placeFrame (.answer a)) ∨
    ((s.line.slot ≠ .empty ∨ s.node.state = .mute ∨ s.node.state = .barred) ∧
      s.offerAnswer a effect = s.carryOut effect) := by
  unfold State.offerAnswer
  cases h : s.node.state <;> cases h' : s.line.slot <;> simp

end Sys2Proof.Machine
end

