-- ==== Sys2Proof/Laws/Close.lean ====
section
/-! SUPPORT. One lemma per operation of the intake list, the posting close and the snapshot close. -/

namespace Sys2Proof.Machine

/-! ### The intake list -/

/-- The sources in the list after an arrival are those before and the arrival's. -/
theorem mem_source_intakePost (p : Post) (list : List Post) (n : BitVec 6) :
    n ∈ (intakePost p list).map (·.source) ↔ n = p.source ∨ n ∈ list.map (·.source) := by
  induction list with
  | nil => simp [intakePost]
  | cons q rest ih =>
    unfold intakePost
    by_cases h : q.source = p.source
    · simp [h]
    · simp only [h, ↓reduceIte, List.map_cons, List.mem_cons, ih]
      exact ⟨fun | .inl a => .inr (.inl a) | .inr (.inl a) => .inl a | .inr (.inr a) => .inr (.inr a),
        fun | .inl a => .inr (.inl a) | .inr (.inl a) => .inl a | .inr (.inr a) => .inr (.inr a)⟩

/-- One post of each source stays one post of each source. -/
theorem nodup_intakePost (p : Post) (list : List Post) (h : (list.map (·.source)).Nodup) :
    ((intakePost p list).map (·.source)).Nodup := by
  induction list with
  | nil => simp [intakePost]
  | cons q rest ih =>
    simp only [List.map_cons, List.nodup_cons] at h
    unfold intakePost
    by_cases e : q.source = p.source
    · simp only [e, ↓reduceIte, List.map_cons, List.nodup_cons]
      exact ⟨e ▸ h.1, h.2⟩
    · simp only [e, ↓reduceIte, List.map_cons, List.nodup_cons]
      exact ⟨fun m => (mem_source_intakePost p rest q.source).1 m |>.elim e h.1, ih h.2⟩

/-- A post of the new list is the arrival or one of the old list. -/
theorem mem_intakePost {p q : Post} {list : List Post} (h : q ∈ intakePost p list) : q = p ∨ q ∈ list := by
  induction list with
  | nil => simpa [intakePost] using h
  | cons r rest ih =>
    unfold intakePost at h
    split at h
    · rcases List.mem_cons.1 h with h | h
      · exact .inl h
      · exact .inr (List.mem_cons_of_mem _ h)
    · rcases List.mem_cons.1 h with h | h
      · exact .inr (h ▸ List.mem_cons_self)
      · exact (ih h).imp id (List.mem_cons_of_mem _)

/-- A delivery changes the intake list, the adoption state and the tag alone, and nothing outside POSTING. -/
theorem State.deliverPost_frame (s : State) (p : Post) :
    s.deliverPost p =
      ((s.withTable { s.table with intake := (s.deliverPost p).table.intake }).withNode
        { s.node with adoption := (s.deliverPost p).node.adoption }).withRound
        { s.round with tag := (s.deliverPost p).round.tag } ∧
    (s.round.phase ≠ .posting → s.deliverPost p = s) ∧
    (s.round.phase = .posting → (s.deliverPost p).table.intake = intakePost p s.table.intake) := by
  unfold State.deliverPost
  cases h : s.round.phase
  case posting =>
    simp only []
    split <;> exact ⟨rfl, fun no => absurd rfl no, fun _ => rfl⟩
  all_goals exact ⟨rfl, fun _ => rfl, nofun⟩

/-! ### The vote and the entries -/

/-- The vote changes the tag and the log alone. -/
theorem State.voteTag_eq (s : State) :
    s.voteTag = (s.withRound { s.round with tag := (tagVote s.round.tag s.table.intake).getD s.round.tag }).withLog
      s.voteTag.log ∧ s.log.records <+: s.voteTag.log.records := by
  unfold State.voteTag
  cases tagVote s.round.tag s.table.intake with
  | none => exact ⟨rfl, List.prefix_refl _⟩
  | some t => exact ⟨rfl, EventLog.prefix_offer _ _⟩

/-- Each entry after a close is the transition of that entry. -/
theorem getElem_closeEntries (entries : Vector Entry 62) (posts : List Post) (roundCount : BitVec 16) (lapse : Nat)
    (i : Fin 62) :
    (closeEntries entries posts roundCount lapse)[i] =
      entries[i].close (postOf posts (stationOf i)) roundCount lapse := by
  simp [closeEntries]

/-- The table's part changes the table and the log alone. -/
theorem State.closeTable_eq (s : State) :
    s.closeTable = (s.withTable
      { s.table with
        misaligned := satAdd s.table.misaligned (misalignedPosts s.round.tag s.table.intake).length
        entries := closeEntries s.table.entries s.alignedNow s.round.roundCount s.lapseLimit }).withLog
      (s.log.offerMany s.round.roundCount (stationRecords s.table.entries s.alignedNow s.lapseLimit)) := by
  unfold State.closeTable
  rw [State.offerAll_eq, State.round_withTable, State.log_withTable]

/-! ### The groups -/

/-- The cell of each group after a close. -/
theorem State.getElem_closeGroups (s : State) (posts : List Post) (before : Vector Entry 62) (g : Fin 8) :
    (s.closeGroups posts before).groups.cells[g] =
      s.groups.cells[g].close (s.handler.store.limit g) (groupRecords posts before s.round.roundCount g) := by
  simp [State.closeGroups]

/-- The aggregator's part changes the groups and the log alone, and ALARM is the condition over the new cells. -/
theorem State.closeGroups_eq (s : State) (posts : List Post) (before : Vector Entry 62) :
    s.closeGroups posts before =
      (s.withLog (s.log.offerMany s.round.roundCount ((List.finRange 8).filterMap fun g =>
        groupEvent (s.handler.store.limit g) (groupRecords posts before s.round.roundCount g) s.groups.cells[g] g))).withGroups
      (s.closeGroups posts before).groups ∧
    (s.closeGroups posts before).groups.alarm =
      alarmCondition s.handler.store (s.closeGroups posts before).groups.cells := by
  unfold State.closeGroups
  simp only [State.offerAll_eq]
  exact ⟨rfl, rfl⟩

/-- The snapshot close changes the tag, the table, the groups and the log alone. -/
theorem State.snapshotClose_frame (s : State) :
    s.snapshotClose.node = s.node ∧ s.snapshotClose.line = s.line ∧
    s.snapshotClose.round = { s.round with tag := (tagVote s.round.tag s.table.intake).getD s.round.tag } ∧
    s.snapshotClose.sampler = s.sampler ∧ s.snapshotClose.aux = s.aux ∧ s.snapshotClose.handler = s.handler ∧
    s.snapshotClose.pending = s.pending ∧ s.snapshotClose.table.intake = s.table.intake ∧
    s.log.records <+: s.snapshotClose.log.records := by
  have hv := s.voteTag_eq
  have ht := s.voteTag.closeTable_eq
  have hg := (s.voteTag.closeTable.closeGroups_eq s.voteTag.alignedNow s.table.entries).1
  unfold State.snapshotClose
  simp only []
  rw [hg]
  simp only [State.node_withGroups, State.line_withGroups, State.round_withGroups, State.sampler_withGroups,
    State.aux_withGroups, State.handler_withGroups, State.pending_withGroups, State.table_withGroups,
    State.log_withGroups, State.node_withLog, State.line_withLog, State.round_withLog, State.sampler_withLog,
    State.aux_withLog, State.handler_withLog, State.pending_withLog, State.table_withLog, State.log_withLog]
  have hp := (s.voteTag.log.prefix_offerMany s.voteTag.round.roundCount
    (stationRecords s.voteTag.table.entries s.voteTag.alignedNow s.voteTag.lapseLimit))
  have hq := s.voteTag.closeTable.log.prefix_offerMany s.voteTag.closeTable.round.roundCount
    ((List.finRange 8).filterMap fun g => groupEvent (s.voteTag.closeTable.handler.store.limit g)
      (groupRecords s.voteTag.alignedNow s.table.entries s.voteTag.closeTable.round.roundCount g)
      s.voteTag.closeTable.groups.cells[g] g)
  refine ⟨?_, ?_, ?_, ?_, ?_, ?_, ?_, ?_, hv.2.trans (hp.trans (by rw [ht] at hq ⊢; exact hq))⟩ <;> rw [ht] <;>
    simp only [State.node_withLog, State.line_withLog, State.round_withLog, State.sampler_withLog,
      State.aux_withLog, State.handler_withLog, State.pending_withLog, State.table_withLog, State.node_withTable,
      State.line_withTable, State.round_withTable, State.sampler_withTable, State.aux_withTable,
      State.handler_withTable, State.pending_withTable, State.table_withTable] <;> rw [hv.1] <;> rfl

/-! ### The posting close -/

/-- A POST still in the slot leaves it, with a record and a count; without one nothing happens. -/
theorem State.dropUnsentPost_cases (s : State) (cause : CloseCause) :
    (s.line.slot.hasPost = false ∧ s.dropUnsentPost cause = s) ∨
    (s.line.slot.hasPost = true ∧ s.dropUnsentPost cause =
      ((s.setSlot .empty).offer .postLost s.own (cause.detail s.round.roundCount)).withRound
        { s.round with postsLost := satInc s.round.postsLost }) := by
  unfold State.dropUnsentPost
  cases h : s.line.slot.hasPost <;> simp
  rfl

/-- A posting close outside POSTING does nothing; in it, it changes no measurement, no store, no timer and no count but
those of the close. -/
theorem State.postingClose_frame (s : State) (cause : CloseCause) :
    (s.round.phase ≠ .posting → s.postingClose cause = s) ∧
    (s.postingClose cause).sampler = s.sampler ∧ (s.postingClose cause).aux = s.aux ∧
    (s.postingClose cause).handler = s.handler ∧ (s.postingClose cause).pending = s.pending ∧
    (s.postingClose cause).node.state = s.node.state ∧ (s.postingClose cause).node.straps = s.node.straps ∧
    (s.postingClose cause).round.roundCount = s.round.roundCount ∧
    (s.postingClose cause).round.epochTimer = s.round.epochTimer ∧
    (s.postingClose cause).round.owed = s.round.owed ∧
    s.log.records <+: (s.postingClose cause).log.records := by
  unfold State.postingClose
  by_cases hp : s.round.phase = .posting
  · simp only [hp, ne_eq, not_true_eq_false, false_implies, true_and, ↓reduceIte]
    have hd : ∀ u : State, u = s.dropUnsentPost cause →
        u.sampler = s.sampler ∧ u.aux = s.aux ∧ u.handler = s.handler ∧ u.pending = s.pending ∧
        u.node = s.node ∧ u.round.roundCount = s.round.roundCount ∧ u.round.epochTimer = s.round.epochTimer ∧
        u.round.owed = s.round.owed ∧ s.log.records <+: u.log.records := by
      intro u hu
      rcases s.dropUnsentPost_cases cause with ⟨_, h⟩ | ⟨_, h⟩ <;> rw [hu, h]
      · simp
      · exact ⟨rfl, rfl, rfl, rfl, rfl, rfl, rfl, rfl, EventLog.prefix_offer _ _⟩
    obtain ⟨h1, h2, h3, h4, h5, h6, h7, h8, h9⟩ := hd _ rfl
    have hj : ∀ u : State, u.judgeDuplicate = u.withNode u.judgeDuplicate.node ∧
        u.judgeDuplicate.node.state = u.node.state ∧ u.judgeDuplicate.node.straps = u.node.straps := by
      intro u
      unfold State.judgeDuplicate
      split <;> simp
    obtain ⟨j1, j2, j3⟩ := hj (s.dropUnsentPost cause)
    split
    · obtain ⟨c1, _, c3, c4, c5, c6, c7, _, c9⟩ :=
        State.snapshotClose_frame
          ((s.dropUnsentPost cause).judgeDuplicate.withRound
            { (s.dropUnsentPost cause).judgeDuplicate.round with phase := .request })
      rw [c1, c3, c4, c5, c6, c7]
      refine ⟨?_, ?_, ?_, ?_, ?_, ?_, ?_, ?_, ?_, List.IsPrefix.trans ?_ c9⟩ <;>
        simp only [State.node_withRound, State.round_withRound, State.sampler_withRound, State.aux_withRound,
          State.handler_withRound, State.pending_withRound, State.log_withRound]
      · rw [j1]; exact h1
      · rw [j1]; exact h2
      · rw [j1]; exact h3
      · rw [j1]; exact h4
      · rw [j2, h5]
      · rw [j3, h5]
      · rw [j1]; exact h6
      · rw [j1]; exact h7
      · rw [j1]; exact h8
      · rw [j1]; exact h9
    · refine ⟨?_, ?_, ?_, ?_, ?_, ?_, ?_, ?_, ?_, ?_⟩ <;>
        simp only [State.node_withRound, State.round_withRound, State.sampler_withRound, State.aux_withRound,
          State.handler_withRound, State.pending_withRound, State.log_withRound]
      · rw [j1]; exact h1
      · rw [j1]; exact h2
      · rw [j1]; exact h3
      · rw [j1]; exact h4
      · rw [j2, h5]
      · rw [j3, h5]
      · rw [j1]; exact h6
      · rw [j1]; exact h7
      · rw [j1]; exact h8
      · rw [j1]; exact h9
  · simp [hp]

/-! ### What a close depends on -/

/-- The TAG-SLIP record of a vote, if it moves the tag (R121). -/
def State.slipRecord (s : State) : List (EventKind × BitVec 6 × BitVec 8) :=
  match tagVote s.round.tag s.table.intake with
  | some new => [(.tagSlip, 0, new)]
  | none => []

/-- The state with the tag its vote gives. -/
def State.voted (s : State) : State :=
  s.withRound { s.round with tag := (tagVote s.round.tag s.table.intake).getD s.round.tag }

/-- The records of a snapshot close, in order (R129). -/
def State.snapshotRecords (s : State) : List (EventKind × BitVec 6 × BitVec 8) :=
  s.slipRecord ++ stationRecords s.table.entries s.voted.alignedNow s.lapseLimit ++
    (List.finRange 8).filterMap fun g => groupEvent (s.handler.store.limit g)
      (groupRecords s.voted.alignedNow s.table.entries s.round.roundCount g) s.groups.cells[g] g

theorem State.voteTag_withLog (s : State) (l : EventLog) :
    (s.withLog l).voteTag = s.voted.withLog (l.offerMany s.round.roundCount s.slipRecord) := by
  unfold State.voteTag State.slipRecord State.voted
  simp only [State.round_withLog, State.table_withLog]
  cases tagVote s.round.tag s.table.intake <;> rfl

/-- The log gives a snapshot close nothing and takes its records. -/
theorem State.snapshotClose_withLog (s : State) (l : EventLog) :
    (s.withLog l).snapshotClose = s.snapshotClose.withLog (l.offerMany s.round.roundCount s.snapshotRecords) := by
  have voted : s.voteTag = (s.withLog s.log).voteTag := rfl
  unfold State.snapshotClose
  simp only [voted, State.voteTag_withLog, State.closeTable_eq, State.closeGroups, State.offerAll_eq,
    State.snapshotRecords, EventLog.offerMany, List.foldl_append]
  rfl

/-- The line gives a snapshot close nothing, and of the controller it reads the tag and the round count alone. -/
theorem State.snapshotClose_withLine_withRound (s : State) (x : Line) (r : Round) (tag : r.tag = s.round.tag)
    (count : r.roundCount = s.round.roundCount) :
    ((s.withLine x).withRound r).snapshotClose =
      (s.snapshotClose.withLine x).withRound { r with tag := s.snapshotClose.round.tag } := by
  rcases s with ⟨n, y, ⟨_, _, _, _, _, _, _, _, _, _, _⟩, sampler, aux, table, groups, handler, log, pending⟩
  rcases r with ⟨_, _, _, _, _, _, _, _, _, _, _⟩
  simp only at tag count
  subst tag count
  have same : ∀ t : State, t.snapshotClose = (t.withLog t.log).snapshotClose := fun _ => rfl
  have voted : ∀ t : State, t.voteTag = (t.withLog t.log).voteTag := fun _ => rfl
  rw [same]
  unfold State.snapshotClose
  simp only [voted ⟨n, y, _, sampler, aux, table, groups, handler, log, pending⟩, State.voteTag_withLog,
    State.closeTable_eq, State.closeGroups, State.offerAll_eq]
  rfl

/-- The node after the judgment of duplicates at a close (R72). -/
def Node.judged (n : Node) : Node :=
  if n.state = .active then { n with dupSuspect := n.dupSuspect || n.collisionNote, collisionNote := false } else n

theorem State.judgeDuplicate_eq (s : State) : s.judgeDuplicate = s.withNode s.node.judged := by
  unfold State.judgeDuplicate Node.judged
  split <;> rfl

/-- The state of a posting close after the slot, the duplicate judgment and the phase (R52). -/
def State.atRequest (s : State) : State := (s.withNode s.node.judged).withRound { s.round with phase := .request }

/-- A posting close with no POST in the slot. -/
theorem State.postingClose_of_no_post {s : State} (cause : CloseCause) (h : s.line.slot.hasPost = false) :
    s.postingClose cause =
      if s.round.phase = .posting then
        if s.node.state.closes then s.atRequest.snapshotClose else s.atRequest
      else s := by
  simp only [State.postingClose, State.dropUnsentPost, h, Bool.false_eq_true, if_false, State.judgeDuplicate_eq]
  rfl

/-- The records of a posting close with no POST in the slot. -/
def State.closeRecords (s : State) : List (EventKind × BitVec 6 × BitVec 8) :=
  if s.round.phase = .posting ∧ s.node.state.closes = true then s.atRequest.snapshotRecords else []

/-- A posting close with no POST in the slot is the same whatever its cause, the line and the log, and of the controller it
reads the tag, the round count and the phase alone. -/
theorem State.postingClose_withLine_withRound_withLog (s : State) (x : Line) (r : Round) (l : EventLog)
    (cause cause' : CloseCause) (hx : x.slot.hasPost = false) (hs : s.line.slot.hasPost = false)
    (tag : r.tag = s.round.tag) (count : r.roundCount = s.round.roundCount) (phase : r.phase = s.round.phase) :
    (((s.withLine x).withRound r).withLog l).postingClose cause =
      (((s.postingClose cause').withLine x).withRound
        { r with tag := (s.postingClose cause').round.tag, phase := (s.postingClose cause').round.phase }).withLog
        (l.offerMany s.round.roundCount s.closeRecords) := by
  have moved : (((s.withLine x).withRound r).withLog l).atRequest =
      ((s.atRequest.withLine x).withRound { r with phase := .request }).withLog l := rfl
  rw [State.postingClose_of_no_post cause' hs, State.postingClose_of_no_post cause (by exact hx), moved]
  unfold State.closeRecords
  simp only [State.round_withLog, State.round_withRound, State.node_withLog, State.node_withRound,
    State.node_withLine, phase]
  by_cases h : s.round.phase = .posting
  · by_cases closes : s.node.state.closes = true
    · have kept : s.atRequest.snapshotClose.round.phase = .request := by
        rw [(State.snapshotClose_frame _).2.2.1]; rfl
      simp only [h, closes, and_self, if_true, State.snapshotClose_withLog, kept]
      rw [State.snapshotClose_withLine_withRound _ _ _ (by exact tag) (by exact count)]
      rcases s with ⟨_, _, ⟨_, _, _, _, _, _, _, _, _, _, _⟩, _, _, _, _, _, _, _⟩
      rcases r with ⟨_, _, _, _, _, _, _, _, _, _, _⟩
      simp only at tag count phase
      subst tag count phase
      rfl
    · simp only [h, closes, if_true, EventLog.offerMany]
      rcases s with ⟨_, _, ⟨_, _, _, _, _, _, _, _, _, _, _⟩, _, _, _, _, _, _, _⟩
      rcases r with ⟨_, _, _, _, _, _, _, _, _, _, _⟩
      simp only at tag count phase
      subst tag count phase
      rfl
  · simp only [h, false_and, if_false, EventLog.offerMany, List.foldl_nil]
    rcases s with ⟨_, _, ⟨_, _, _, _, _, _, _, _, _, _, _⟩, _, _, _, _, _, _, _⟩
    rcases r with ⟨_, _, _, _, _, _, _, _, _, _, _⟩
    simp only at tag count phase
    subst tag count phase
    rfl

end Sys2Proof.Machine
end

