-- ==== Sys2Proof/Laws/Epoch.lean ====
section
/-! SUPPORT. One lemma per operation of the sampler's completion and of the epoch instant. -/

namespace Sys2Proof.Machine

/-! ### The sampler -/

/-- A change of health touches the log alone, and only adds to it. -/
theorem State.offerSensor_eq (s : State) (old new : Quality) :
    s.offerSensor old new = s.withLog (s.offerSensor old new).log ∧
    s.log.records <+: (s.offerSensor old new).log.records := by
  unfold State.offerSensor
  split
  · exact ⟨rfl, EventLog.prefix_offer _ _⟩
  · split
    · exact ⟨rfl, EventLog.prefix_offer _ _⟩
    · exact ⟨rfl, List.prefix_refl _⟩

/-- A completed operation changes the sampler and the log alone. -/
theorem State.completeReading_eq (s : State) (r : Reading) :
    s.completeReading r =
      (s.withSampler { s.sampler with stage := .idle, work := Work.cleared, finished := some r,
                                      lastOwn := r.quality }).withLog (s.completeReading r).log ∧
    s.log.records <+: (s.completeReading r).log.records := by
  unfold State.completeReading
  exact State.offerSensor_eq _ _ _

/-- An edge of the coil changes the sampler and the log alone. -/
theorem State.takeEdge_eq (s : State) (clocks : Nat) :
    s.takeEdge clocks = (s.withSampler (s.takeEdge clocks).sampler).withLog (s.takeEdge clocks).log ∧
    s.log.records <+: (s.takeEdge clocks).log.records := by
  have hc : ∀ r, s.completeReading r = (s.withSampler (s.completeReading r).sampler).withLog (s.completeReading r).log ∧
      s.log.records <+: (s.completeReading r).log.records := by
    intro r
    obtain ⟨h, hp⟩ := s.completeReading_eq r
    refine ⟨?_, hp⟩
    conv => lhs; rw [h]
    conv => rhs; rw [h]
    rfl
  have hs : s = (s.withSampler s.sampler).withLog s.log ∧ s.log.records <+: s.log.records := ⟨rfl, List.prefix_refl _⟩
  unfold State.takeEdge
  simp only []
  split
  · split
    · exact hc _
    · exact ⟨rfl, List.prefix_refl _⟩
  · split
    · exact hs
    · split
      · exact hc _
      · split
        · exact hc _
        · exact ⟨rfl, List.prefix_refl _⟩

/-- The start of the sampler changes the sampler and the log alone. -/
theorem State.startSampler_eq (s : State) :
    s.startSampler = (s.withSampler s.startSampler.sampler).withLog s.startSampler.log ∧
    s.startSampler.sampler.stage = .excite ∧ s.startSampler.sampler.finished = none ∧
    s.startSampler.sampler.lastOwn = s.sampler.lastOwn ∧ s.log.records <+: s.startSampler.log.records := by
  unfold State.startSampler State.recordOverrun
  split
  · exact ⟨rfl, rfl, rfl, rfl, EventLog.prefix_offer _ _⟩
  · exact ⟨rfl, rfl, rfl, rfl, List.prefix_refl _⟩

/-! ### The instant -/

/-- Stage 1 is the posting close with an empty slot after it. -/
theorem State.epochClose_eq (s : State) : s.epochClose = (s.postingClose .mark).setSlot .empty := rfl

/-- Stage 2 changes the node state machine and the controller alone; it keeps the straps, the round count and the phase. -/
theorem State.epochNodeState_eq (s : State) :
    s.epochNodeState = (s.withNode s.epochNodeState.node).withRound s.epochNodeState.round ∧
    s.epochNodeState.node.straps = s.node.straps ∧ s.epochNodeState.round.roundCount = s.round.roundCount ∧
    s.epochNodeState.round.phase = s.round.phase ∧
    (s.epochNodeState.node.state = s.node.state ∨ s.epochNodeState.node.state = .active) := by
  unfold State.epochNodeState
  cases h : s.node.state
  case listen =>
    dsimp only
    split
    · exact ⟨rfl, rfl, rfl, rfl, .inr rfl⟩
    · exact ⟨rfl, rfl, rfl, rfl, .inr rfl⟩
    · split
      · exact ⟨rfl, rfl, rfl, rfl, .inr rfl⟩
      · exact ⟨rfl, rfl, rfl, rfl, .inl h⟩
  case mute =>
    dsimp only
    split
    · exact ⟨rfl, rfl, rfl, rfl, .inr rfl⟩
    · exact ⟨rfl, rfl, rfl, rfl, .inl h⟩
  all_goals exact ⟨rfl, rfl, rfl, rfl, .inl h⟩

/-- Stage 3 changes the node state machine and the controller alone: the count goes on, MARK begins, EPOCH is asserted. -/
theorem State.epochRound_eq (s : State) :
    s.epochRound = (s.withNode s.epochRound.node).withRound s.epochRound.round ∧
    s.epochRound.node.straps = s.node.straps ∧ s.epochRound.node.state = s.node.state ∧
    s.epochRound.round.roundCount = s.round.roundCount + 1 ∧ s.epochRound.round.phase = .mark ∧
    s.epochRound.round.epochOut = true ∧ s.epochRound.round.owed = none ∧
    s.epochRound.round.epochTimer = some s.period ∧ s.epochRound.round.tag = s.epochTag ∧
    s.epochRound.round.muteCount = s.round.muteCount := by
  unfold State.epochRound
  split
  · refine ⟨rfl, ?_, ?_, rfl, rfl, rfl, rfl, rfl, rfl, rfl⟩ <;>
      · simp only [State.node_withRound, State.node_withNode, Node.countMark]
        split <;> (try split) <;> rfl
  · exact ⟨rfl, rfl, rfl, rfl, rfl, rfl, rfl, rfl, rfl, rfl⟩

/-- Stage 5 changes the sampler, the aux channel and the log alone. -/
theorem State.epochMeasure_eq (s : State) :
    s.epochMeasure = ((s.withSampler s.epochMeasure.sampler).withAux s.epochMeasure.aux).withLog s.epochMeasure.log ∧
    s.log.records <+: s.epochMeasure.log.records := by
  unfold State.epochMeasure
  split
  · obtain ⟨h, _, _, _, hp⟩ := s.startSampler_eq
    unfold State.startAux
    split
    · constructor
      · conv => lhs; rw [h]
        conv => rhs; rw [h]
        rfl
      · simpa using hp
    · constructor
      · conv => lhs; rw [h]
        conv => rhs; rw [h]
        rfl
      · exact hp
  · exact ⟨rfl, List.prefix_refl _⟩

/-- Stage 6 changes the line alone. -/
theorem State.epochPost_eq (s : State) (reading : Option Reading) (aux : Option AuxResult) :
    s.epochPost reading aux = s.withLine (s.epochPost reading aux).line := by
  unfold State.epochPost
  split
  · exact (s.placeFrame_eq _).1
  · rfl

/-- The stages of an instant keep the store, the awaited effect and the queue; the round count advances by 1. -/
theorem State.epochStages_frame (s : State) :
    s.epochStages.handler = s.handler ∧ s.epochStages.pending = s.pending ∧
    s.epochStages.node.straps = s.node.straps ∧ s.epochStages.sampler = s.sampler ∧ s.epochStages.aux = s.aux ∧
    s.epochStages.round.roundCount = s.round.roundCount + 1 ∧ s.epochStages.round.phase = .mark ∧
    s.epochStages.table.intake = [] ∧ s.epochStages.line.slot = .empty ∧
    s.log.records <+: s.epochStages.log.records := by
  obtain ⟨_, p1, p2, p3, p4, _, p6, p7, _, _, p10⟩ := s.postingClose_frame .mark
  obtain ⟨n1, n2, n3, _, _⟩ := s.epochClose.epochNodeState_eq
  obtain ⟨r1, r2, _, r4, r5, _⟩ := s.epochClose.epochNodeState.epochRound_eq
  have hl : s.epochClose.log = (s.postingClose .mark).log := rfl
  unfold State.epochStages State.epochIntake
  refine ⟨?_, ?_, ?_, ?_, ?_, ?_, ?_, rfl, ?_, ?_⟩ <;>
    simp only [State.node_withTable, State.round_withTable, State.sampler_withTable, State.aux_withTable,
      State.handler_withTable, State.pending_withTable, State.line_withTable, State.log_withTable]
  · rw [r1, State.handler_withRound, State.handler_withNode, n1]; exact p3
  · rw [r1, State.pending_withRound, State.pending_withNode, n1]; exact p4
  · rw [r2, n2]; exact p6
  · rw [r1, State.sampler_withRound, State.sampler_withNode, n1]; exact p1
  · rw [r1, State.aux_withRound, State.aux_withNode, n1]; exact p2
  · rw [r4, n3]; exact congrArg (· + 1) p7
  · exact r5
  · rw [r1, State.line_withRound, State.line_withNode, n1]; rfl
  · rw [r1, State.log_withRound, State.log_withNode, n1]; exact p10

/-- An instant keeps the store, the awaited effect, the straps and the queue; outside SETUP it advances the round count
and begins MARK, and it only adds to the log. -/
theorem State.epochInstant_frame (s : State) :
    s.epochInstant.handler = s.handler ∧ s.epochInstant.pending = s.pending ∧
    s.epochInstant.node.straps = s.node.straps ∧
    (s.node.state = .setup → s.epochInstant = s) ∧
    (s.node.state ≠ .setup → s.epochInstant.round.roundCount = s.round.roundCount + 1 ∧
      s.epochInstant.round.phase = .mark ∧ s.epochInstant.table.intake = []) ∧
    s.log.records <+: s.epochInstant.log.records := by
  unfold State.epochInstant
  split
  · next h => exact ⟨rfl, rfl, rfl, fun _ => rfl, fun no => absurd h no, List.prefix_refl _⟩
  · next h =>
    obtain ⟨f1, f2, f3, _, _, f6, f7, f8, _, f10⟩ := s.epochStages_frame
    obtain ⟨m1, m2⟩ := s.epochStages.epochMeasure_eq
    have e := s.epochStages.epochMeasure.epochPost_eq s.epochStages.sampler.handOver s.epochStages.auxHandOver
    simp only []
    rw [e]
    simp only [State.node_withLine, State.round_withLine, State.handler_withLine, State.pending_withLine,
      State.table_withLine, State.log_withLine]
    refine ⟨?_, ?_, ?_, fun no => absurd no h, fun _ => ⟨?_, ?_, ?_⟩, f10.trans m2⟩
    · rw [m1]; exact f1
    · rw [m1]; exact f2
    · rw [m1]; exact f3
    · rw [m1]; exact f6
    · rw [m1]; exact f7
    · rw [m1]; exact f8

end Sys2Proof.Machine
end

