-- ==== Sys2Proof/Laws/Frames.lean ====
section
/-! SUPPORT. The line code: attempts and read-back. Octets and fields: joining what was split, lengths, and the check over appended octets. -/

namespace Sys2Proof.Machine

/-! ### The line code -/

/-- A cell that two stations send alike is the cell of either. -/
theorem superpose_self (c : CellLevels) : superpose c c = c := by
  cases c; simp [superpose]

theorem zipWith_superpose_self (cells : List CellLevels) : List.zipWith superpose cells cells = cells := by
  simp [superpose_self]

/-- A cell read back as it was sent is no disagreement. -/
theorem readBack_self (c : CellLevels) : readBack c c = none := by
  rcases c with ⟨_, q2, q3, _⟩
  cases q2 <;> cases q3 <;> rfl

/-- Cells that the line shows as they were sent leave the attempt going, with that many bits more sent. -/
theorem attemptOutcome_sent_append (n : Nat) (sent own : List Bool) (line : List CellLevels) :
    attemptOutcome n (sent ++ own) (sent.map cellOf ++ line) = attemptOutcome (n + sent.length) own line := by
  induction sent generalizing n with
  | nil => rfl
  | cons b sent ih =>
    have step := ih (n + 1)
    have hq1 : (cellOf b).q1 = true := rfl
    have hq4 : (cellOf b).q4 = false := rfl
    simp only [List.cons_append, List.map_cons, attemptOutcome, hq1, hq4, readBack_self, Bool.not_true,
      Bool.false_eq_true, ↓reduceIte, List.length_cons, step]
    congr 1
    omega

/-- An attempt whose cells the line shows as they were sent ends in success. -/
theorem attemptOutcome_sent (n : Nat) (sent : List Bool) : attemptOutcome n sent (sent.map cellOf) = .success := by
  have h := attemptOutcome_sent_append n sent [] []
  simpa [attemptOutcome] using h

/-! ### Octets -/

theorem octets16_eq (w : BitVec 16) : octets16 w = [w.extractLsb' 8 8, w.extractLsb' 0 8] := rfl

theorem octets24_eq (w : BitVec 24) : octets24 w = [w.extractLsb' 16 8, w.extractLsb' 8 8, w.extractLsb' 0 8] := rfl

theorem octets32_eq (w : BitVec 32) :
    octets32 w = [w.extractLsb' 24 8, w.extractLsb' 16 8, w.extractLsb' 8 8, w.extractLsb' 0 8] := rfl

/-- A 16-bit field read back from its own octets. -/
theorem join16_extract (w : BitVec 16) : join16 (w.extractLsb' 8 8) (w.extractLsb' 0 8) = w := by
  unfold join16
  rw [BitVec.extractLsb'_append_extractLsb'_eq_extractLsb' (by rfl)]
  simp

/-- A 24-bit field read back from its own octets. -/
theorem join24_extract (w : BitVec 24) :
    join24 (w.extractLsb' 16 8) (w.extractLsb' 8 8) (w.extractLsb' 0 8) = w := by
  unfold join24
  rw [BitVec.extractLsb'_append_extractLsb'_eq_extractLsb' (by rfl)]
  rw [BitVec.extractLsb'_append_extractLsb'_eq_extractLsb' (by rfl)]
  simp

/-- A 32-bit field read back from its own octets. -/
theorem join32_extract (w : BitVec 32) :
    join32 (w.extractLsb' 24 8) (w.extractLsb' 16 8) (w.extractLsb' 8 8) (w.extractLsb' 0 8) = w := by
  unfold join32
  rw [BitVec.extractLsb'_append_extractLsb'_eq_extractLsb' (by rfl)]
  rw [BitVec.extractLsb'_append_extractLsb'_eq_extractLsb' (by rfl)]
  rw [BitVec.extractLsb'_append_extractLsb'_eq_extractLsb' (by rfl)]
  simp

/-- The check goes on from where it stands. -/
theorem check_append (as bs : List Byte) : check (as ++ bs) = bs.foldl checkOctet (check as) := by
  simp [check, List.foldl_append]

/-- A frame ends with the two octets of its check. -/
theorem withCheck_eq (body : List Byte) :
    withCheck body = body ++ [(check body).extractLsb' 8 8, (check body).extractLsb' 0 8] := rfl

/-- The judgment of a body followed by its own check is the frame it was made for. -/
theorem judgeCheck_own (body : List Byte) (frame : Frame) :
    judgeCheck body ((check body).extractLsb' 8 8) ((check body).extractLsb' 0 8) frame = .valid frame := by
  simp [judgeCheck, join16_extract]

theorem length_valueOctets (v : Option (BitVec 24)) : (valueOctets v).length = if v.isSome then 3 else 0 := by
  cases v <;> simp [valueOctets, octets24]

theorem length_auxOctets (a : Option (BitVec 16)) : (auxOctets a).length = if a.isSome then 2 else 0 := by
  cases a <;> simp [auxOctets, octets16]

/-- A POST has 5, 7, 8 or 10 octets, by its value and its aux field. -/
theorem Post.length_octets (p : Post) :
    p.octets.length = 5 + (if p.reading.value.isSome then 3 else 0) + (if p.aux.isSome then 2 else 0) := by
  simp only [Post.octets, withCheck, List.length_append, List.length_cons, List.length_nil, length_valueOctets,
    length_auxOctets, octets16]
  omega

theorem Request.length_octets (r : Request) : r.octets.length = 6 + r.args.length := by
  simp only [Request.octets, withCheck, List.length_append, List.length_cons, List.length_nil, octets16]
  omega

theorem Answer.length_octets (a : Answer) : a.octets.length = 6 + a.payload.length := by
  simp only [Answer.octets, withCheck, List.length_append, List.length_cons, List.length_nil, octets16]
  omega

/-- The configuration image has 119 octets. -/
theorem Store.length_image (s : Store) : s.image.length = 119 := by
  have hr : ∀ r : LimitRecord, r.image.length = 13 := fun _ => rfl
  have hl : ∀ l : List LimitRecord, (l.flatMap LimitRecord.image).length = 13 * l.length := by
    intro l
    induction l with
    | nil => rfl
    | cons r l ih => simp only [List.flatMap_cons, List.length_append, List.length_cons, hr, ih]; omega
  simp only [Store.image, Plan.section1, Plan.section2, Cal.image, octets16, octets24, List.length_append,
    List.length_cons, List.length_nil, hl, Vector.length_toList]

/-! ### The judgment of a frame, by its first octet -/

/-- The source of a first octet is its low six bits. -/
theorem firstOctetSource_eq (o : Byte) : firstOctetSource o = o.setWidth 6 := by
  rw [← BitVec.toNat_inj]; simp [firstOctetSource]

/-- The kind of a first octet, by its range. -/
theorem firstOctetKind_eq (o : Byte) :
    firstOctetKind o =
      if o.toNat < 64 then .post else if o.toNat < 128 then .answer else if o.toNat < 192 then .request else .invalid := by
  have kind : (o.extractLsb' 6 2).toNat = o.toNat / 64 := by
    simp [BitVec.extractLsb'_toNat, Nat.shiftRight_eq_div_pow]; omega
  have bound := o.isLt
  unfold firstOctetKind
  rw [kind]
  split_ifs with h1 h2 h3
  · rw [show o.toNat / 64 = 0 by omega]; rfl
  · rw [show o.toNat / 64 = 1 by omega]; rfl
  · rw [show o.toNat / 64 = 2 by omega]; rfl
  · rw [show o.toNat / 64 = 3 by omega]; rfl

theorem judge_of_post {o : Byte} (rest : List Byte) (h : 1 ≤ o.toNat) (h' : o.toNat ≤ 62) :
    judge (o :: rest) = judgePost o rest := by
  simp only [judge, firstOctetKind_eq, if_pos (show o.toNat < 64 by omega), firstOctetSource_eq, ← BitVec.toNat_inj]
  rw [if_neg (by simp; omega)]

theorem judge_of_answer {o : Byte} (rest : List Byte) (h : 64 ≤ o.toNat) (h' : o.toNat < 128) :
    judge (o :: rest) = judgeAnswer o rest := by
  simp [judge, firstOctetKind_eq, h', show ¬ o.toNat < 64 by omega]

theorem judge_of_request {o : Byte} (rest : List Byte) (h : 128 ≤ o.toNat) (h' : o.toNat < 192) :
    judge (o :: rest) = judgeRequest o rest := by
  simp [judge, firstOctetKind_eq, h', show ¬ o.toNat < 64 by omega, show ¬ o.toNat < 128 by omega]

end Sys2Proof.Machine
end

