-- ==== Sys2Proof/Laws/LineEvents.lean ====
section
/-! SUPPORT. One lemma per operation of the line: the judgment of a malformed frame, the quarters the node drives, recognition. -/

namespace Sys2Proof.Machine

/-! ### Malformed frames -/

theorem Line.errorsAtJudgment_of_mark {l : Line} (h : l.markHold = true) : l.errorsAtJudgment = l.rxErrors := by
  simp [Line.errorsAtJudgment, h]

theorem Line.errorsAtJudgment_of_no_mark {l : Line} (h : l.markHold = false) :
    l.errorsAtJudgment = satInc l.rxErrors := by
  simp [Line.errorsAtJudgment, h]

/-- What the judgment of a malformed frame keeps: the slot, the line-fault flag, the error run and a mark hold. -/
theorem Line.malformed_frame (l : Line) (cond : LineCondition) :
    (l.malformed cond).cond = cond ∧ (l.malformed cond).receiving = false ∧ (l.malformed cond).window = false ∧
    (l.malformed cond).slot = l.slot ∧ (l.malformed cond).fault = l.fault ∧ (l.malformed cond).txRun = l.txRun ∧
    (l.malformed cond).markHold = l.markHold := ⟨rfl, rfl, rfl, rfl, rfl, rfl, rfl⟩

/-! ### What the node drives -/

/-- Outside FRAME the node drives a mark hold or nothing. -/
theorem State.drivesLine_of_not_frame {s : State} (h : s.line.cond ≠ .frame) : s.drivesLine = s.line.markHold := by
  simp [State.drivesLine, State.drivesFrame, h]

/-- In FRAME the node drives a mark hold or a frame that is SENDING. -/
theorem State.drivesLine_of_frame {s : State} (h : s.line.cond = .frame) :
    s.drivesLine = (s.line.markHold || s.line.slot.isSending) := by
  simp [State.drivesLine, State.drivesFrame, h]

/-- A node that holds no mark and no frame drives nothing. -/
theorem State.drivesLine_of_empty {s : State} (h : s.line.markHold = false) (e : s.line.slot = .empty) :
    s.drivesLine = false := by
  simp [State.drivesLine, State.drivesFrame, Slot.isSending, h, e]

/-! ### Recognition -/

/-- Recognition empties the slot of an ANSWER and leaves a POST to the close. -/
theorem Line.recognize_slot (l : Line) : l.recognize.slot = if l.slot.hasAnswer then .empty else l.slot := rfl

end Sys2Proof.Machine
end

