-- ==== Sys2Proof/Laws/Requests.lean ====
section
/-! SUPPORT. One lemma per operation the request rows share. -/

namespace Sys2Proof.Machine

theorem requestOf_eq_some {octets : List Byte} {r : Request} :
    requestOf octets = some r ↔ judge octets = .valid (.request r) := by
  unfold requestOf
  split <;> simp_all

/-- A request row changes nothing, ends the frame, or ends it and hands the request over. -/
theorem State.onRequest_cases (s : State) (octets : List Byte) (accepts : Request → Bool)
    (handle : Request → State → State) :
    s.onRequest octets accepts handle = s ∨
    ∃ r, s.line.cond = .frame ∧ requestOf octets = some r ∧ accepts r = true ∧
      ((s.addressed r && s.node.state.takes r) = false ∧
          s.onRequest octets accepts handle = s.withLine (s.line.requestEnd r) ∨
        (s.addressed r && s.node.state.takes r) = true ∧
          s.onRequest octets accepts handle = handle r (s.withLine (s.line.requestEnd r))) := by
  unfold State.onRequest
  split
  · next hc =>
    split
    · next r hr =>
      split
      · next ha =>
        right
        refine ⟨r, hc, hr, ha, ?_⟩
        cases h : s.addressed r && s.node.state.takes r <;> simp
      · exact .inl rfl
    · exact .inl rfl
  · exact .inl rfl

/-- A request that is addressed to the node and taken reaches its handler after the frame's end on the line. -/
theorem State.onRequest_of_taken {s : State} {octets : List Byte} {r : Request} {accepts : Request → Bool}
    (handle : Request → State → State) (hc : s.line.cond = .frame) (hr : requestOf octets = some r)
    (ha : accepts r = true) (hd : s.addressed r = true) (ht : s.node.state.takes r = true) :
    s.onRequest octets accepts handle = handle r (s.withLine (s.line.requestEnd r)) := by
  simp [State.onRequest, hc, hr, ha, hd, ht]

/-- A request that is not addressed to the node, or not taken, only ends on the line. -/
theorem State.onRequest_of_untaken {s : State} {octets : List Byte} {r : Request} {accepts : Request → Bool}
    (handle : Request → State → State) (hc : s.line.cond = .frame) (hr : requestOf octets = some r)
    (ha : accepts r = true) (hn : (s.addressed r && s.node.state.takes r) = false) :
    s.onRequest octets accepts handle = s.withLine (s.line.requestEnd r) := by
  simp [State.onRequest, hc, hr, ha, hn]

/-- A single-target request with an EMPTY slot in SETUP, LISTEN or ACTIVE is answered in the slot, its effect awaited; the
frame has just ended, so the answer waits. -/
theorem State.respond_of_target {s : State} {r : Request} (status : Status) (payload : List Byte) (effect : Awaited)
    (hb : r.broadcast = false) (he : s.line.slot = .empty) (ho : s.line.cond ≠ .opened)
    (hm : s.node.state ≠ .mute) (hn : s.node.state ≠ .barred) :
    s.respond r status payload effect =
      (s.withHandler { s.handler with awaited := effect }).setSlot
        (.waiting (.answer { source := s.own, code := r.code, status := status.code, payload := payload })) := by
  have hp : ∀ f, (s.withHandler { s.handler with awaited := effect }).placeFrame f =
      (s.withHandler { s.handler with awaited := effect }).setSlot (.waiting f) := by
    intro f; simp [State.placeFrame, ho]
  unfold State.respond State.offerAnswer
  cases h : s.node.state <;> simp_all

/-- A broadcast is answered by nothing: DONE carries its effect out at once, a refusal has none. -/
theorem State.respond_of_broadcast {s : State} {r : Request} (status : Status) (payload : List Byte) (effect : Awaited)
    (hb : r.broadcast = true) :
    s.respond r status payload effect = if status = .done then s.carryOut effect else s := by
  cases status <;> simp [State.respond, hb]

/-- The one argument octet of a request is in its range, and nothing else passes. -/
theorem oneArg_eq_some {args : List Byte} {lo hi : Nat} {a : Byte} :
    oneArg args lo hi = some a ↔ args = [a] ∧ lo ≤ a.toNat ∧ a.toNat ≤ hi := by
  unfold oneArg
  split
  · next b =>
    split
    · next h => simp only [Option.some.injEq, List.cons.injEq, and_true]
                exact ⟨fun e => ⟨e, e ▸ h⟩, fun e => e.1⟩
    · next h => simp only [reduceCtorEq, List.cons.injEq, and_true, false_iff]
                exact fun e => h (e.1 ▸ e.2)
  · next h => simp only [reduceCtorEq, false_iff]; exact fun e => h a e.1

end Sys2Proof.Machine
end

