-- ==== Sys2Proof/Tests/Slice0.lean ====
section
/-! SUPPORT. Tests: ill-formed operands, the manual's worked examples, and for each statement with hypotheses a concrete state that meets them. -/

namespace Sys2Proof.Tests

open Sys2Proof Sys2Proof.Machine

set_option Elab.async false

/-! ### Helpers -/

/-- Station 7 in group 2, 25 kcells/s, 200 ms, aux channel enabled. -/
def straps : Straps := ⟨7, 2, 1, 1, true⟩

/-- A listener: station 0. -/
def listener : Straps := { straps with station := 0 }

/-- A node with these straps in a node state, a line condition and a phase, at round 5 with tag 10. -/
def nodeOf (st : Straps) (state : NodeState) (cond : LineCondition) (phase : Phase) : State :=
  { State.atRelease st false false with
    node := { Node.atRelease st with state := state, setupTimer := if state = .setup then some 32000000 else none }
    line := { Line.atRelease false with cond := cond, receiving := decide (cond = .frame) }
    round := { Round.atRelease with
      phase := phase, tag := 10, roundCount := 5, muteCount := if state = .mute then 1 else 0,
      epochTimer := if state = .setup then none else some 1600000,
      listenTimer := if state = .listen then some (Config.listenClocks 1 7) else none } }

/-- Station 7 so. -/
def node (state : NodeState) (cond : LineCondition) (phase : Phase) : State := nodeOf straps state cond phase

/-- The state with this in the slot. -/
def holding (s : State) (slot : Slot) : State := s.withLine { s.line with slot := slot }

/-- The state with this effect awaited. -/
def awaiting (s : State) (effect : Awaited) : State := s.withHandler { s.handler with awaited := effect }

/-- A post of a station with a tag. -/
def postOf (source : BitVec 6) (tag : BitVec 8) (reading : Reading) : Post := ⟨source, tag, 2, reading, none, false⟩

/-- The node's own post of round 5. -/
def ownPost : Post := postOf 7 9 (.good 50000)

/-- An answer of the node. -/
def ownAnswer : Answer := ⟨7, 18, 0, []⟩

/-- A request to station 7. -/
def ask (code : Byte) (args : List Byte) : Request := ⟨0, 7, code, args⟩

/-- A broadcast request. -/
def tell (code : Byte) (args : List Byte) : Request := ⟨0, 63, code, args⟩

/-- The next state meets this. -/
def after (c : Instr) (s : State) (p : State → Bool) : Bool :=
  match exec c s with
  | .next t => p t
  | .fault _ => false
  | .refused _ => false

/-- The state a command leads to (no command stops the node). -/
def run (s : State) (c : Instr) : State :=
  match exec c s with
  | .next t => t
  | .fault _ => s
  | .refused _ => s

/-- The payload and status of the answer that waits in the slot. -/
def answered (s : State) : Option (Byte × List Byte) :=
  match s.line.slot with
  | .waiting (.answer a) => some (a.status, a.payload)
  | _ => none

/-! ### Well-formed operands -/

theorem test_wf_post : Instr.wf (.postReceived ownPost.octets) = true ∧
    Instr.wf (.postReceived (ask 1 []).octets) = false := by decide +kernel

theorem test_wf_answer : Instr.wf (.answerReceived ownAnswer.octets) = true ∧
    Instr.wf (.answerReceived ownPost.octets) = false := by decide +kernel

theorem test_wf_report : Instr.wf (.malformedFrame (.shape ⟨true, true, true, true⟩)) = true ∧
    Instr.wf (.malformedFrame (.shape ⟨true, false, false, false⟩)) = false ∧
    Instr.wf (.malformedFrame (.octets [0xC0])) = true ∧ Instr.wf (.malformedFrame (.octets [1])) = false := by
  decide +kernel

theorem test_wf_request_code : Instr.wf (.readStatus (ask 1 []).octets) = true ∧
    Instr.wf (.readStatus (ask 2 [1]).octets) = false ∧ Instr.wf (.readEntry (ask 1 []).octets) = false ∧
    Instr.wf (.readGroup (ask 1 []).octets) = false ∧ Instr.wf (.readEvents (ask 1 []).octets) = false ∧
    Instr.wf (.ackEvents (ask 1 []).octets) = false ∧ Instr.wf (.forget (ask 1 []).octets) = false ∧
    Instr.wf (.quiet (ask 1 []).octets) = false ∧ Instr.wf (.restart (ask 1 []).octets) = false := by decide +kernel

theorem test_wf_configure_code : Instr.wf (.configurePlan (ask 1 []).octets) = false ∧
    Instr.wf (.configureCal (ask 1 []).octets) = false ∧ Instr.wf (.configureLimits (ask 1 []).octets) = false ∧
    Instr.wf (.closeSetup (ask 1 []).octets) = false ∧ Instr.wf (.unknownRequestCode (ask 1 []).octets) = false ∧
    Instr.wf (.unknownRequestCode (ask 40 []).octets) = true := by decide +kernel

theorem test_wf_others : Instr.wf (.auxEdge true 0) = false ∧ Instr.wf (.auxEdge true 1) = true ∧
    Instr.wf (.requestOtherTarget (tell 1 []).octets) = false ∧ Instr.wf (.requestIgnored [1]) = false := by
  decide +kernel

/-- No word spells a command. -/
theorem test_no_words : decodeTableWord 8 1 = none ∧ State.reset.withFetchWord 8 1 = State.reset := ⟨rfl, rfl⟩

/-! ### The manual's examples: frames -/

theorem test_check_example : check [49, 50, 51, 52, 53, 54, 55, 56, 57] = 10673#16 := by decide +kernel

/-- Section 2.3: the octets of a POST, written out field by field. -/
theorem test_post_layout : (⟨12, 100, 5, .clipped 0x7FFFFF, some 0x9003, true⟩ : Post).octets.take 8 =
    [0x0C, 100, 0xA7, 0x7F, 0xFF, 0xFF, 0x90, 0x03] := by decide +kernel

theorem test_request_layout : (ask 2 [9]).octets.take 5 = [0x80, 7, 2, 1, 9] := by decide +kernel

theorem test_answer_layout : (⟨7, 2, 3, []⟩ : Answer).octets.take 4 = [0x47, 2, 3, 0] := by decide +kernel

/-- Section 2.6, the worked example: the unused quality code is found at octet 3, and the frame is counted. -/
theorem test_malformed_example :
    judge [5, 1, 0x1C] = .malformed .postQuality ∧
    after (.malformedFrame (.octets [5, 1, 0x1C])) (node .active .frame .posting)
      (fun t => t.line.cond == .resync && t.line.rxErrors == 1) = true := by decide +kernel

/-! ### The manual's examples: sampler and aux channel -/

/-- Section 5.5, example A. -/
theorem test_completion_A : completedReading defaultPlan ⟨350000, 4096⟩ 256010 255990 = .good 50000 := by decide +kernel

/-- Section 5.5, example B. -/
theorem test_completion_B : completedReading defaultPlan ⟨350000, 4096⟩ 256600 255400 = .unstable 50000 := by
  decide +kernel

/-- Section 5.5, example C. -/
theorem test_completion_C : completedReading defaultPlan ⟨350000, 4096⟩ 80000 80000 = .outOfBand 3746000 := by
  decide +kernel

/-- Section 5.5: rounding toward zero, and the clamp. -/
theorem test_rounding : unclampedValue ⟨0, BitVec.ofInt 16 (-6144)⟩ 50001 = -75001 ∧
    unclampedValue ⟨0, 32767⟩ 6400000 = 51198437 ∧ clampValue 51198437 = 8388607 := by decide +kernel

/-- Section 6.3, examples A and B. -/
theorem test_aux_examples : timedResult 16010 64000 8010 7990 = ⟨.ok, 4098⟩ ∧
    timedResult 16010 65096 9100 7990 = ⟨.erratic, 4029⟩ ∧ stuckResult true = ⟨.stuckHigh, 16383⟩ := by decide +kernel

/-! ### The manual's examples: station table and groups -/

/-- The entry of section 7.9 at the close of round 120. -/
def entry7 : Entry :=
  { state := .present, group := 2, lastTag := 0, lastQuality := .good, lastValue := some 1, lastAux := none,
    alarm := false, missRun := 0, heard := 400, misses := 5, lastHeard := 120 }

/-- Section 7.9: four missed closes and a return. -/
theorem test_lapse_and_return :
    let e3 := ((entry7.miss 3).miss 3).miss 3
    ((entry7.miss 3).miss 3).closeRecord none 3 = some (.stationLapsed, 2) ∧
    e3 = { entry7 with state := .lapsed, missRun := 3, misses := 8 } ∧
    (e3.miss 3) = { entry7 with state := .lapsed, missRun := 3, misses := 9 } ∧
    ((e3.miss 3).take (postOf 7 1 (.good 2)) 125).state = .present ∧
    ((e3.miss 3).take (postOf 7 1 (.good 2)) 125).heard = 401 ∧
    (e3.miss 3).closeRecord (some (postOf 7 1 (.good 2))) 3 = some (.stationReturned, 2) := by decide +kernel

/-- Section 7.10: the slip at station 30. -/
theorem test_tag_slip :
    tagVote 1 [postOf 3 117 (.good 1), postOf 12 117 (.good 1), postOf 30 0 .notSampled, postOf 40 117 (.good 1)] =
      some 118 ∧
    tagVote 118 [postOf 3 117 (.good 1), postOf 12 117 (.good 1), postOf 30 0 .notSampled, postOf 40 117 (.good 1)] =
      none := by decide +kernel

/-- A post of section 8.8. -/
def post4 (source : BitVec 6) (reading : Reading) : Post := ⟨source, 0, 4, reading, none, false⟩

/-- Section 8.8: the record of group 4. -/
theorem test_group_record :
    groupRecord [post4 6 (.good 41200), post4 9 (.clipped 8388607), post4 14 (.good (BitVec.ofInt 24 (-3050))),
        post4 22 (.unstable 40990), post4 31 (.good (BitVec.ofInt 24 (-3050)))] [6, 9, 14, 22] 2010 4 =
      { expected := 4, contributors := 4, complete := false, sum := 8423707,
        extremes := some { minStation := 14, minimum := -3050, maxStation := 9, maximum := 8388607, mean := 2105926 },
        lastClose := 2010 } := by decide +kernel

/-- Section 8.4: group 3 entering HIGH gives detail 49. -/
theorem test_group_details : groupDetail 3 1 = 49#8 ∧ groupDetail 5 3 = 83#8 := by decide

/-! ### The manual's examples: requests and the log -/

/-- Section 9.7, steps 7 and 8: the high of group 2 is written, and a low above it refused. -/
theorem test_limits_session :
    let high := configureLimits (0x22 :: octets32 120000) defaultStore
    (high.map fun s => ((s.limit 2).high, (s.limit 2).low)) = some (120000#32, 0x80000000#32) ∧
    (high.bind fun s => configureLimits (0x32 :: octets32 130000) s) = none ∧
    (high.bind fun s => configureLimits (0x32 :: octets32 (BitVec.ofInt 32 (-50000))) s).isSome = true := by
  decide +kernel

/-- Section 9.7, steps 2, 4 and 5. -/
theorem test_plan_session :
    ((configurePlan [1, 0x01, 0x90, 0x17, 0x70, 0x81] defaultStore).map fun s => (s.plan.pluck, s.plan.count)) =
      some (true, 64) ∧
    configurePlan [3, 0x01, 0x90, 0x17, 0x70, 0x81] defaultStore = none ∧
    ((configureCal [0x05, 0x57, 0x30, 0x10, 0x00] defaultStore).map fun s => s.cal) = some ⟨350000, 4096⟩ := by
  decide +kernel

/-- Section 9.7, step 1: READ-STATUS in SETUP, all but the two octets of the digest. -/
theorem test_read_status :
    (answered (run (node .setup .frame .quietWait) (.readStatus (ask 1 []).octets))).map
      (fun a => (a.1, a.2.take 4, a.2.drop 6)) =
    some (0, [0x08, 0, 5, 10], [0, 0, 0, 0, 0, 0, 0, 0, 0, 0, 0, 0, 0, 0, 0]) := by decide +kernel

/-- Section 9.7, steps 11, 12 and 15: an unknown code, a read in SETUP, a CONFIGURE outside SETUP. -/
theorem test_refusals :
    answered (run (node .setup .frame .quietWait) (.unknownRequestCode (ask 40 []).octets)) = some (1, []) ∧
    answered (run (node .setup .frame .quietWait) (.readEntry (ask 2 [21]).octets)) = some (3, []) ∧
    answered (run (node .listen .frame .quietWait) (.configureCal (ask 34 [0, 0, 0, 16, 0]).octets)) = some (4, []) := by
  decide +kernel

/-- A log of the records of section 10.7, with 5 dropped. -/
def fullLog : EventLog :=
  { records := ⟨.restarted, 0, 0, 0⟩ :: (List.range 15).map fun n => ⟨.stationNew, 3, BitVec.ofNat 6 (n + 1), 2⟩
    dropped := 5 }

/-- Section 10.7: reading four events and acknowledging them. -/
theorem test_read_and_ack :
    answered (run ((node .active .frame .request).withLog fullLog) (.readEvents (ask 4 [4]).octets)) =
      some (0, [16, 18, 0, 0, 0, 0, 8, 0, 3, 1, 2, 8, 0, 3, 2, 2, 8, 0, 3, 3, 2]) ∧
    answered (run ((node .active .frame .request).withLog fullLog) (.ackEvents (ask 5 [4]).octets)) =
      some (0, [12, 5]) ∧
    (run ((node .active .frame .request).withLog fullLog) (.ackEvents (ask 5 [4]).octets)).log =
      { records := fullLog.records.drop 4, dropped := 0 } := by decide +kernel

/-! ### Sequences of the manual -/

/-- Section 11.5: a collision noted, suspected at the close, and a second collision that bars the node. -/
theorem test_duplicate_bars :
    let noted := run (holding (node .active .frame .posting) (.sending (.post ownPost))) (.collision .otherReport)
    let suspected := run noted (.firstOctetComplete 0x80)
    noted.node.collisionNote = true ∧ noted.line.slot = .waiting (.post ownPost) ∧
    suspected.node.dupSuspect = true ∧ suspected.line.slot = .empty ∧ suspected.log.records = [⟨.postLost, 5, 7, 1⟩] ∧
    (run (holding suspected (.sending (.post ownPost))) (.collision .otherReport)).node.state = .barred := by
  decide +kernel

/-- Section 11.4: an expiry during a stuck hold owes the mark, and the quiet after it originates it. -/
theorem test_stuck_hold :
    let stuck := run (node .active .marked .mark) .lineStuck
    let owed := run stuck .epochTimerExpiry
    let opened := run (run owed .markEnd) (.startOpportunity false)
    owed.round.owed = some .marked ∧ opened.line.cond = .opened ∧
    (run opened (.quietForPhaseGap .lineOwedClose)).log.records =
      [⟨.lineStuck, 5, 0, 0⟩, ⟨.lineReleased, 5, 0, 0⟩, ⟨.markDeferred, 5, 0, 2⟩] ∧
    (run opened (.quietForPhaseGap .lineOwedClose)).line.markHold = true := by decide +kernel

/-- Section 11.3: an instant places the post and starts both measurements, and the start opportunity sends it. -/
theorem test_round :
    let marked := run (node .active .longHold .request) (.markRecognized .otherReport)
    let started := run (run marked .markEnd) (.startOpportunity false)
    marked.sampler.stage = .excite ∧ marked.aux.stage = .measuring ∧ marked.round.roundCount = 6 ∧
    started.round.phase = .posting ∧ started.line.slot = .sending (.post (postOf 7 10 .notSampled)) ∧
    (run started .txSuccess).table.intake = [postOf 7 10 .notSampled] := by decide +kernel

/-- Section 1.4: a line that reads released while the node holds a mark records no error, and the hold goes on; a long hold
of another station that is released is counted. -/
theorem test_mark_hold_records_no_error :
    let marking := run (node .active .opened .request) .epochTimerExpiry
    let owing := run (run marking (.quietForPhaseGap .lineOwedClose)) .longHold
    let released := run owing .longHoldReleased
    owing.line.markHold = true ∧ owing.line.receiving = true ∧ released.line.cond = .resync ∧
    released.line.markHold = true ∧ released.line.rxErrors = 0 ∧
    (run (run (node .active .frame .request) .longHold) .longHoldReleased).line.rxErrors = 1 := by decide +kernel

/-- Section 1.5: a hold at Q4 leaves the outcome of a POST waiting; the node drives nothing, and the release brings the
collision. -/
theorem test_outcome_waits :
    let sending := holding (node .active .frame .posting) (.sending (.post ownPost))
    let waiting := run sending .longHold
    let collided := run (run waiting .longHoldReleased) (.collision .otherReport)
    sending.drivesLine = true ∧ waiting.drivesLine = false ∧ waiting.line.slot = .sending (.post ownPost) ∧
    collided.line.slot = .waiting (.post ownPost) ∧ collided.line.txRun = 1 := by decide +kernel

/-! ### Hypotheses that are met -/

theorem witness_StepRunsFrontCommand : (State.reset.withPending [.markEnd]).pending = .markEnd :: [] ∧
    State.reset.pending = [] := by decide +kernel

theorem witness_ResetHeldTakesNothing :
    (∀ straps held, Instr.markEnd ≠ .resetRelease straps held) ∧ ∀ rising clocks, Instr.markEnd ≠ .auxEdge rising clocks :=
  ⟨nofun, nofun⟩

theorem witness_HeldQuartersDecideArbitration : (0#8).toNat < (1#8).toNat ∧ (254#8).toNat < (255#8).toNat := by decide

/-- Two POSTs of one station that differ after the first octet: collision for the higher; and a disturbed cell, in the first
octet and after it. -/
theorem test_attempt_outcomes :
    (let low := frameCells [7, 10]
     let high := frameCells [7, 11]
     List.zipWith superpose low high = low ∧
     attemptOutcome 0 ([7, 11].flatMap octetBits) low = .collision ∧
     attemptOutcome 0 ([7, 10].flatMap octetBits) low = .success) ∧
    attemptOutcome 0 [true] [⟨true, true, false, true⟩] = .arbitrationLoss ∧
    attemptOutcome 0 [true] [⟨true, false, false, true⟩] = .driveFailure ∧
    attemptOutcome 0 [false] [⟨true, true, false, false⟩] = .driveFailure ∧
    attemptOutcome 0 [true] [⟨false, false, false, false⟩] = .driveFailure := by decide +kernel

theorem witness_AttemptsEndByCell :
    (10#8).toNat < (11#8).toNat ∧ ([7#8] : List Byte) ≠ [] ∧
    (⟨true, true, false, true⟩ : CellLevels).q1 = true ∧ (⟨true, true, false, true⟩ : CellLevels).q2 = true ∧
    (⟨true, true, false, true⟩ : CellLevels).q3 = false ∧ (⟨false, true, false, true⟩ : CellLevels).q1 = false ∧
    (⟨true, false, false, true⟩ : CellLevels) = { cellOf true with q4 := true } ∧
    ([7].flatMap octetBits).length = 8 := by decide +kernel

/-- Each condition of section 2.6, and the octets one short of the declared length. -/
theorem test_judgments :
    judge [192] = .malformed .kindCode ∧ judge [255, 1] = .malformed .kindCode ∧
    judge [0] = .malformed .postSource ∧ judge [63, 1] = .malformed .postSource ∧
    judge [128, 64] = .malformed .requestTarget ∧ judge [62, 0, 0x1C] = .malformed .postQuality ∧
    judge [128, 1, 0, 7] = .malformed .argumentLength ∧ judge [64, 0, 0, 25] = .malformed .payloadLength ∧
    judge [191, 255, 0, 0, 0, 0] = .malformed .checkMismatch ∧
    judge ((ask 1 [5]).octets.dropLast ++ [0]) = .malformed .checkMismatch ∧
    judge (ask 1 [5]).octets.dropLast = .incomplete ∧ judge ownAnswer.octets.dropLast = .incomplete ∧
    judge ownPost.octets.dropLast = .incomplete ∧ judge (ownPost.octets.dropLast ++ [0]) = .malformed .checkMismatch ∧
    judge (ownAnswer.octets.dropLast ++ [0]) = .malformed .checkMismatch := by decide +kernel

/-- The ranges of the judgment's clauses at their bounds: first octets, quality and content of a POST, lengths. -/
theorem witness_EveryListIsJudged :
    ((192#8).toNat = 192 ∧ (0#8).toNat = 0 ∧ (63#8).toNat = 63) ∧
    (1 ≤ (1#8).toNat ∧ (62#8).toNat ≤ 62 ∧ 64 ≤ (64#8).toNat ∧ (127#8).toNat < 128 ∧ 128 ≤ (128#8).toNat ∧
      (191#8).toNat < 192) ∧
    ((0x1C#8).toNat / 4 % 8 = 7 ∧ (0x0E#8).toNat / 4 % 8 = 3 ∧ (0x0E#8).toNat / 2 % 2 = 1 ∧ (0x10#8).toNat / 4 % 8 = 4) ∧
    (24 < (25#8).toNat ∧ (24#8).toNat ≤ 24 ∧ 6 < (7#8).toNat ∧ (6#8).toNat ≤ 6 ∧ (64#8).toNat % 64 = 0 ∧
      (65#8).toNat % 64 ≠ 0) ∧
    (∃ hi lo : Byte, hi ++ lo = check [62, 0, 0x10] ∧ ∃ hi' : Byte, hi' ++ lo ≠ check [62, 0, 0x10]) := by
  refine ⟨by decide, by decide, by decide, by decide,
    ⟨(check [62, 0, 0x10]).extractLsb' 8 8, (check [62, 0, 0x10]).extractLsb' 0 8, by decide +kernel,
      ~~~(check [62, 0, 0x10]).extractLsb' 8 8, by decide +kernel⟩⟩

theorem witness_SentFrameIsReceivedWhole :
    ((postOf 1 0 .noSignal).source ≠ 0#6 ∧ (postOf 1 0 .noSignal).source ≠ 63#6) ∧
    ((postOf 62 0 .noSignal).source ≠ 0#6 ∧ (postOf 62 0 .noSignal).source ≠ 63#6) ∧
    ((ask 1 (List.replicate 6 0)).target ≠ 0#6 ∧ (ask 1 (List.replicate 6 0)).args.length ≤ 6) ∧
    (⟨7, 1, 0, List.replicate 24 0⟩ : Answer).payload.length ≤ 24 := by decide

theorem witness_HoldsAndReleasesMoveLineCondition :
    ((node .active .gap .posting).node.resetHeld = false ∧ (node .active .gap .posting).line.slot.hasAnswer = false) ∧
    (node .active .opened .posting).line.cond = .opened ∧ (node .active .frame .posting).line.cond = .frame ∧
    (holding (node .active .frame .posting) (.sending (.post ownPost))).line.cond = .frame ∧
    (node .active .resync .posting).line.cond = .resync ∧
    ((node .active .longHold .posting).line.cond = .longHold ∧ (node .active .longHold .posting).line.receiving = false) ∧
    ∃ s : State, s.node.resetHeld = false ∧ s.line.cond = .opened ∧ s.line.window = true := by
  refine ⟨by decide +kernel, by decide +kernel, by decide +kernel, by decide +kernel, by decide +kernel,
    by decide +kernel, ?_⟩
  exact ⟨(node .active .opened .posting).withLine { (node .active .opened .posting).line with window := true },
    by decide +kernel⟩

theorem witness_StartOpportunityStartsWaitingFrame :
    (node .active .gap .posting).node.resetHeld = false ∧ (node .active .gap .posting).line.cond = .gap ∧
    (node .active .resync .posting).line.cond = .resync ∧
    (holding (node .active .gap .posting) (.waiting (.post ownPost))).line.slot = .waiting (.post ownPost) ∧
    ∀ f : TxFrame, (node .active .gap .posting).line.slot ≠ .waiting f :=
  ⟨by decide +kernel, by decide +kernel, by decide +kernel, by decide +kernel, nofun⟩

theorem witness_MarkEndOpensPosting :
    (node .active .marked .mark).node.resetHeld = false ∧ (node .active .marked .mark).line.cond = .marked := by
  decide +kernel

/-- A node in OPEN with the line-fault flag set. -/
def faulty : State :=
  (node .active .opened .request).withLine { (node .active .opened .request).line with fault := true }

theorem witness_StuckLineIsFlaggedAndReleased :
    ((node .active .marked .mark).line.cond = .marked ∧ (node .active .marked .mark).line.fault = false) ∧
    ((run (node .active .marked .mark) .lineStuck).line.cond = .marked ∧
      (run (node .active .marked .mark) .lineStuck).line.fault = true) ∧
    (faulty.node.resetHeld = false ∧ faulty.line.cond = .opened ∧ faulty.line.window = false ∧
      faulty.line.fault = true ∧ faulty.round.owed = none ∧ faulty.round.phase ≠ .posting) := by decide +kernel

/-- A node in OPEN that owes a mark. -/
def owing : State := (node .active .opened .request).withRound { (node .active .opened .request).round with owed := some .opened }

theorem witness_QuietOriginatesOwedMark : owing.node.resetHeld = false ∧ owing.line.cond = .opened ∧
    owing.line.window = false ∧ owing.line.fault = false ∧ owing.round.phase ≠ .posting ∧
    owing.round.owed = some .opened := by decide +kernel

/-- A node in a LONG-HOLD that grew out of a frame. -/
def overrun : State := run (node .active .frame .posting) .longHold

theorem witness_MalformedFrameIsCountedOnce :
    ((node .active .frame .posting).node.resetHeld = false ∧ (node .active .frame .posting).line.receiving = true ∧
      (node .active .frame .posting).line.cond = .frame) ∧
    judge [0xC0] = .malformed .kindCode ∧ judge [5, 1, 0x18, 0, 0] = .malformed .checkMismatch ∧
    (overrun.node.resetHeld = false ∧ overrun.line.receiving = true ∧ overrun.line.cond = .longHold ∧
      overrun.line.markHold = false) ∧
    (overrun.joinMark.line.receiving = true ∧ overrun.joinMark.line.cond = .longHold ∧
      overrun.joinMark.line.markHold = true) ∧
    ((⟨false, true, true, true⟩ : CellLevels).q1 = false ∧ (⟨true, true, true, true⟩ : CellLevels).q4 = true) := by
  decide +kernel

theorem witness_FirstOctetClosesPostingOnly :
    (node .active .frame .request).Hearing ∧ (node .active .frame .request).round.phase ≠ .posting ∧
    (node .listen .frame .posting).Hearing ∧ (node .listen .frame .posting).round.phase = .posting ∧
    (node .listen .frame .posting).node.state = .listen ∧ (node .listen .frame .posting).line.slot.hasPost = false ∧
    (63#8).toNat < 64 ∧ 64 ≤ (64#8).toNat ∧ (191#8).toNat < 192 ∧ 192 ≤ (192#8).toNat := by decide +kernel

theorem witness_PostJoinsIntakeInPosting :
    judge (postOf 9 9 .noSignal).octets = .valid (.post (postOf 9 9 .noSignal)) ∧
    ((node .active .frame .request).Hearing ∧ (node .active .frame .request).round.phase ≠ .posting) ∧
    ((node .active .frame .posting).Hearing ∧ (node .active .frame .posting).round.phase = .posting ∧
      (node .active .frame .posting).node.state ≠ .listen) ∧
    ((node .listen .frame .posting).Hearing ∧ (node .listen .frame .posting).round.phase = .posting ∧
      (node .listen .frame .posting).node.state = .listen ∧ (node .listen .frame .posting).node.adoption ≠ .posted) ∧
    ([postOf 9 9 .noSignal].map (·.source)).Nodup := by decide +kernel

theorem witness_FramesForOthersOnlyEndOnTheLine :
    (node .active .frame .request).Hearing ∧ judge ownAnswer.octets = .valid (.answer ownAnswer) ∧
    requestOf (⟨0, 9, 1, []⟩ : Request).octets = some ⟨0, 9, 1, []⟩ ∧ (9#6 : BitVec 6) ≠ (node .active .frame .request).own ∧
    requestOf (tell 1 []).octets = some (tell 1 []) ∧
    ((node .barred .frame .request).Hearing ∧ (node .barred .frame .request).node.state = .barred) ∧
    ((node .mute .frame .request).Hearing ∧ (node .mute .frame .request).node.state = .mute ∧
      requestOf (ask 1 []).octets = some (ask 1 []) ∧ (ask 1 []).code ≠ 19#8 ∧
      (node .mute .frame .request).sampling = true ∧ (ask 1 []).target = (node .mute .frame .request).own) ∧
    ((node .active .frame .request).node.state ≠ .mute ∧ (tell 1 []).target = 63#6 ∧ (tell 1 []).code ≠ 19#8 ∧
      (tell 1 []).code ≠ 36#8) := by decide +kernel

theorem witness_ActiveInstantPostsAndSamples : ∃ s, s = node .active .longHold .request ∧ s.node.resetHeld = false ∧
    s.line.cond = .longHold ∧ s.node.state = .active ∧ s.sampling = true ∧ s.round.phase ≠ .posting ∧
    s.line.slot.hasAnswer = false := ⟨_, rfl, by decide +kernel⟩

theorem witness_InstantWithoutSampling :
    (∃ s, s = node .barred .longHold .request ∧ s.node.resetHeld = false ∧ s.line.cond = .longHold ∧
      s.line.slot.hasAnswer = false ∧ s.node.state = .barred ∧ s.round.phase ≠ .posting) ∧
    (∃ s, s = nodeOf listener .active .longHold .request ∧ s.node.state = .active ∧ s.sampling = false ∧
      s.node.resetHeld = false ∧ s.line.cond = .longHold ∧ s.line.slot.hasAnswer = false) ∧
    ∃ s, s = node .setup .longHold .quietWait ∧ s.node.resetHeld = false ∧ s.line.cond = .longHold ∧
      s.line.slot.hasAnswer = false ∧ s.node.state = .setup :=
  ⟨⟨_, rfl, by decide +kernel⟩, ⟨_, rfl, by decide +kernel⟩, ⟨_, rfl, by decide +kernel⟩⟩

/-- A node in LISTEN at a long hold, with its adoption state, its silent marks and its listen claim. -/
def joining (adoption : Adoption) (marks : Nat) (claim : Bool) : State :=
  (node .listen .longHold .posting).withNode
    { (node .listen .longHold .posting).node with adoption := adoption, silentMarks := marks, listenClaim := claim }

theorem witness_ListenInstantJoinsTheLine :
    ((joining .posted 0 false).node.resetHeld = false ∧ (joining .posted 0 false).line.cond = .longHold ∧
      (joining .posted 0 false).node.state = .listen ∧ (joining .posted 0 false).line.slot = .empty ∧
      (joining .posted 0 false).node.adoption ≠ .none ∧ (joining .posted 0 false).sampling = true ∧
      (joining .posted 0 false).sampler.stage = .idle ∧ (joining .posted 0 false).sampler.finished = none ∧
      (joining .posted 0 false).aux.stage = .idle ∧ (joining .posted 0 false).aux.result = none) ∧
    ((joining .none 0 true).node.adoption = .none ∧ (joining .none 0 true).node.listenClaim = true) ∧
    ((joining .none 0 false).node.listenClaim = false ∧ (joining .none 0 false).node.silentMarks = 0) ∧
    (joining .none 1 false).node.silentMarks = 1 := by decide +kernel

theorem witness_MuteInstantCountsDown :
    (∃ s, s = node .mute .longHold .request ∧ s.node.resetHeld = false ∧ s.line.cond = .longHold ∧
      s.node.state = .mute ∧ s.sampling = true ∧ s.round.phase ≠ .posting ∧ s.line.slot = .empty ∧
      s.round.muteCount = 1) ∧
    ∃ s, s = (node .mute .longHold .request).withRound { (node .mute .longHold .request).round with muteCount := 2 } ∧
      s.node.state = .mute ∧ s.line.slot = .empty ∧ 2 ≤ s.round.muteCount.toNat :=
  ⟨⟨_, rfl, by decide +kernel⟩, ⟨_, rfl, by decide +kernel⟩⟩

theorem witness_UnsentPostIsLost :
    (∃ s, s = holding (node .active .frame .posting) (.waiting (.post ownPost)) ∧ s.node.resetHeld = false ∧
      s.round.phase = .posting ∧ s.line.slot.post = some ownPost ∧ s.line.cond = .frame) ∧
    ∃ s, s = holding (node .active .longHold .posting) (.sending (.post ownPost)) ∧ s.node.resetHeld = false ∧
      s.round.phase = .posting ∧ s.line.slot.post = some ownPost ∧ s.line.cond = .longHold ∧ s.node.state ≠ .setup :=
  ⟨⟨_, rfl, by decide +kernel⟩, ⟨_, rfl, by decide +kernel⟩⟩

/-- The hypotheses of SnapshotCloseBringsTablesUpToDate, of CloseRecordsReachLogInOrder and of the first clause of
SecondCollisionBarsNode. -/
theorem witness_SnapshotClose : (node .active .frame .posting).Hearing ∧
    (node .active .frame .posting).round.phase = .posting ∧ 64 ≤ (64#8).toNat ∧ (191#8).toNat < 192 ∧
    (node .active .frame .posting).node.state.Closes ∧ (node .mute .frame .posting).node.state.Closes ∧
    (node .barred .frame .posting).node.state.Closes := by decide +kernel

/-- A mark recognized while the phase is POSTING, in every node state that takes the instant, with a POST in the slot and
without. -/
theorem witness_MarkClosesPosting :
    (∀ st ∈ [NodeState.listen, .active, .mute, .barred], (node st .longHold .posting).node.resetHeld = false ∧
      (node st .longHold .posting).line.cond = .longHold ∧ (node st .longHold .posting).node.state ≠ .setup ∧
      (node st .longHold .posting).round.phase = .posting) ∧
    (holding (node .active .longHold .posting) (.sending (.post ownPost))).line.slot.hasPost = true := by
  decide +kernel

/-- The quiet of a deferred round: a mark is owed, the posting phase runs and the line-fault flag is set. -/
def deferred : State :=
  (faulty.withRound { faulty.round with owed := some .frameOrGap, phase := .posting })

theorem witness_QuietClosesAsFirstOctetDoes :
    (∀ s ∈ [deferred, owing, faulty], s.node.resetHeld = false ∧ s.line.cond = .opened ∧ s.line.window = false ∧
      s.line.slot.hasPost = false) ∧
    (deferred.line.fault = true ∧ deferred.round.owed = some .frameOrGap ∧ deferred.round.phase = .posting) ∧
    64 ≤ (64#8).toNat ∧ (191#8).toNat < 192 := by decide +kernel

/-- The deferred round in two orders: the same records in another order, the phase closed and the mark originated. -/
theorem test_deferred_round :
    (run deferred (.quietForPhaseGap .lineOwedClose)).log.records = [⟨.lineReleased, 5, 0, 0⟩, ⟨.markDeferred, 5, 0, 3⟩] ∧
    (run deferred (.quietForPhaseGap .closeOwedLine)).log.records = [⟨.markDeferred, 5, 0, 3⟩, ⟨.lineReleased, 5, 0, 0⟩] ∧
    (run deferred (.quietForPhaseGap .closeOwedLine)).round.phase = .request ∧
    (run deferred (.quietForPhaseGap .closeOwedLine)).line.markHold = true := by decide +kernel

/-- A suspected duplicate that is sending its post. -/
def suspected : State :=
  (holding (node .active .frame .posting) (.sending (.post ownPost))).withNode
    { (node .active .frame .posting).node with dupSuspect := true }

theorem witness_SecondCollisionBarsNode : suspected.node.resetHeld = false ∧ suspected.node.state = .active ∧
    suspected.line.txRun ≤ 7 ∧ suspected.line.slot = .sending (.post ownPost) ∧ suspected.node.dupSuspect = true := by
  decide +kernel

theorem witness_TagVoteTakesMostFrequentTag :
    tagVote 0 [postOf 1 5 .noSignal, postOf 2 5 .noSignal, postOf 3 255 .noSignal] = some 6 := by decide +kernel

theorem witness_EntriesMoveAtSnapshotClose : entry7.state = .present ∧ Entry.vacant.state = .vacant ∧
    (entry7.miss 3).state = .lapsing ∧ (entry7.miss 3).missRun + 1 < 3 ∧
    ((entry7.miss 3).miss 3).missRun + 1 = 3 ∧ (entry7.miss 1).state = .lapsed ∧
    (Entry.vacant.take ownPost 1).state = .seen ∧ (1 ≤ 1 ∧ 1 ≤ 15) ∧ (1 ≤ 15 ∧ 15 ≤ 15) := by decide +kernel

theorem witness_GroupSumExtremesAndMean : [ownPost].length ≤ 62 ∧
    (∀ p ∈ [ownPost], p.reading.value ≠ some 0x800000#24) ∧ 1 ≤ (groupRecord [ownPost] [] 0 2).contributors ∧
    (groupRecord [] [] 0 2).contributors = 0 ∧ contributors [ownPost] 2 = [(7, 50000)] := by decide +kernel

theorem witness_CloseEvaluatesLimitsAndRuns :
    (defaultLimit.low.toInt < defaultLimit.high.toInt ∧
      (defaultLimit.hysteresis.toNat : Int) ≤ defaultLimit.high.toInt - defaultLimit.low.toInt) ∧
    defaultLimit.watched = false ∧ (groupRecord [] [7] 0 2).complete = false ∧
    (groupRecord [ownPost] [7] 0 2).complete = true := by decide +kernel

theorem witness_RawReadingAndCalibratedValue : 0 < 1 ∧ 8000000 * 1 = 8000 * 1000 ∧ (8388607 : Int) < 8388608 ∧
    (-8388608 : Int) < -8388607 ∧ (4096#16 : BitVec 16).toInt = 4096 ∧ (0#16 : BitVec 16).toInt = 0 := by decide

theorem witness_StabilityAndBandDecideQuality : 0 < defaultPlan.bandLow.toNat ∧ 512000 ≤ countWindow defaultPlan ∧
    unstable defaultPlan 256600 255400 = true ∧ unstable defaultPlan 80000 80000 = false ∧
    outOfBand defaultPlan 160000 = true ∧ outOfBand defaultPlan 512000 = false ∧
    8388607 < (unclampedValue ⟨0, 32767⟩ (rawReading 128 512000)).natAbs + 8388607 := by decide +kernel

/-- A node that counts, with this work. -/
def counting (started : Bool) (edges : Nat) : State :=
  (node .active .opened .request).withSampler
    { Sampler.atRelease with stage := .count, work := { Work.cleared with started := started, edges := edges } }

/-- A node in EXCITE or SETTLE under a settle time. -/
def exciting (stage : SamplerStage) (settle : BitVec 8) : State :=
  (node .active .opened .request).withSampler
    { Sampler.atRelease with stage := stage, work := { Work.cleared with plan := { defaultPlan with settle := settle } } }

theorem witness_SamplerStagesAndEdges :
    ((exciting .excite 20).node.resetHeld = false ∧ (exciting .excite 20).sampler.stage = .excite ∧
      (exciting .excite 20).sampler.work.plan.settle ≠ 0) ∧ (exciting .excite 0).sampler.work.plan.settle = 0 ∧
    (exciting .settle 20).sampler.stage = .settle ∧
    (defaultPlan.pluck = false ∧ defaultPlan.bandLow.toNat ≤ defaultPlan.bandHigh.toNat ∧
      400000 ≤ exciteClocks defaultPlan ∧ 0 < defaultPlan.bandLow.toNat + defaultPlan.bandHigh.toNat) ∧
    ((counting false 0).sampler.stage = .count ∧ (counting false 0).sampler.work.started = false) ∧
    ((counting true 0).sampler.work.started = true ∧
      0 + 3200000 ≤ 10000000 * defaultPlan.count / defaultPlan.bandLow.toNat ∧
      (counting true 126).sampler.work.edges + 1 < defaultPlan.count) := by decide +kernel

theorem witness_CompletionStoresReadingAndReportsHealth :
    ((counting false 0).node.resetHeld = false ∧ (counting false 0).sampler.stage = .count ∧
      (counting false 0).sampler.work.started = false) ∧ (counting true 0).sampler.work.started = true ∧
    160000 < 160001 ∧ 10000000 * defaultPlan.count / defaultPlan.bandLow.toNat < 3200001 ∧
    (counting true 127).sampler.work.edges + 1 = (counting true 127).sampler.work.plan.count := by decide +kernel

/-- A node that measures its AUX input at a level, with edge 0 seen or not and these periods timed. -/
def measuring (pin started : Bool) (edges : Nat) : State :=
  (node .active .opened .request).withAux
    { Aux.cleared pin with stage := .measuring, started := started, edgeCount := edges, openHigh := 1, total := 7 }

theorem witness_AuxChannelMeasuresEightPeriods :
    ((measuring true false 0).node.resetHeld = false ∧ (measuring true false 0).aux.stage = .measuring ∧
      (measuring true false 0).aux.pin = true ∧ (measuring true false 0).aux.started = false) ∧
    (measuring true true 0).aux.started = true ∧ (measuring false false 0).aux.pin = false ∧
    ((measuring false true 6).aux.started = true ∧ (measuring false true 6).aux.edgeCount + 1 ≠ 8) ∧
    (measuring false true 7).aux.edgeCount = 7 ∧
    (measuring false true 7).aux.high < (measuring false true 7).aux.total + ((measuring false true 7).aux.openHigh + 1) := by
  decide +kernel

/-- The edges that are not counted: later than the edge timer, outside MEASURING, while RESET is held, and at the same level;
and an edge of the coil outside COUNT. -/
theorem witness_EdgesNotCounted :
    (400000 < 400001 ∧ (measuring true true 3).node.resetHeld = false ∧ (measuring true true 3).aux.stage = .measuring ∧
      (measuring true true 3).aux.pin ≠ false ∧ (measuring false true 3).aux.pin ≠ true ∧
      (measuring true true 3).aux.pin = true) ∧
    (node .listen .opened .request).aux.stage = .idle ∧ (node .listen .opened .request).sampler.stage ≠ .count ∧
    (run (node .active .opened .request) .resetAsserted).node.resetHeld = true := by decide +kernel

theorem test_late_aux_edge_is_stuck :
    after (.auxEdge false 400001) (measuring true true 7) (fun t =>
      t.aux.result == some ⟨.stuckHigh, 16383⟩ && t.aux.stage == .idle && t.aux.pin == false && t.aux.edgeCount == 7) =
      true := by decide +kernel

theorem witness_ReadsAreAnsweredFromTheState :
    (node .active .frame .request).HearsRequest (ask 1 []).octets (ask 1 []) ∧
    (node .setup .frame .quietWait).HearsRequest (ask 1 []).octets (ask 1 []) ∧
    (node .active .frame .request).HearsRequest (ask 2 [62]).octets (ask 2 [BitVec.ofNat 8 (61 + 1)]) ∧
    (node .active .frame .request).HearsRequest (ask 3 [7]).octets (ask 3 [BitVec.ofNat 8 7]) ∧
    (node .active .frame .request).HearsRequest (ask 4 [4]).octets (ask 4 [4]) ∧
    (node .active .frame .request).node.state ≠ .setup := by decide +kernel

/-- An entry and a group cell for the record layouts. -/
theorem witness_RecordLayouts : entry7.state ≠ .vacant ∧ entry7.missRun ≤ 15 ∧
    { entry7 with missRun := 15 }.missRun ≤ 15 ∧ entry7.octets.length = 12 ∧ Entry.vacant.octets = [0#8] ∧
    { entry7 with lastValue := none }.octets.length = 9 ∧ { entry7 with lastAux := some 1 }.octets.length = 14 := by
  decide +kernel

/-- A node in whose table station 62 has LAPSED. -/
def lapsed : State :=
  let s := node .active .frame .request
  s.withTable (s.table.withEntry 62 { Entry.vacant with state := .lapsed, missRun := 3 })

theorem witness_AckAndForgetRemoveWhatTheyName :
    (node .active .frame .request).HearsRequest (ask 5 [16]).octets (ask 5 [16]) ∧
    lapsed.HearsRequest (ask 17 [62]).octets (ask 17 [BitVec.ofNat 8 (61 + 1)]) ∧
    lapsed.table.entries[(61 : Fin 62)].state = .lapsed ∧
    lapsed.HearsRequest (ask 17 [1]).octets (ask 17 [BitVec.ofNat 8 (0 + 1)]) ∧
    lapsed.table.entries[(0 : Fin 62)].state ≠ .lapsed ∧ lapsed.node.state ≠ .setup := by decide +kernel

theorem witness_StateCommandsWaitForTheirAnswer :
    (node .active .frame .request).HearsRequest (ask 18 [255]).octets (ask 18 [255]) ∧
    (node .active .frame .request).node.state = .active ∧
    (node .listen .frame .request).HearsRequest (ask 19 []).octets (ask 19 []) ∧
    (node .setup .frame .quietWait).HearsRequest (ask 36 []).octets (ask 36 []) := by decide +kernel

/-- The hypotheses of ConfigureWritesStoreInSetup and of CalibrationArgumentOfR175. -/
theorem witness_ConfigureWritesStoreInSetup :
    (node .setup .frame .quietWait).HearsRequest (ask 33 [2, 50, 2, 7, 208, 3]).octets (ask 33 [2, 50, 2, 7, 208, 3]) ∧
    (configurePlan [2, 50, 2, 7, 208, 3] defaultStore).isSome = true ∧
    (node .setup .frame .quietWait).HearsRequest (ask 34 [0x61, 0xA8, 0, 0x80, 0]).octets (ask 34 [0x61, 0xA8, 0, 0x80, 0]) ∧
    (configureCal [0x61, 0xA8, 0, 0x80, 0] defaultStore).isSome = true ∧
    configureCal [0x61, 0xA8, 1, 0x80, 0] defaultStore = none ∧
    (node .setup .frame .quietWait).HearsRequest (ask 35 [0x12, 0x92]).octets (ask 35 [0x12, 0x92]) ∧
    (configureLimits [0x12, 0x92] defaultStore).isSome = true := by decide +kernel

theorem witness_ConfigurationLayoutsRoundTrip : defaultStore.PlanOk := by decide +kernel

/-- Section 2.7: the bounds of the two plan sections, and arguments just outside them. -/
theorem test_plan_bounds :
    (configurePlan [1, 0, 200, 0, 201, 0x83] defaultStore).isSome = true ∧
    (configurePlan [1, 0x1F, 0x3F, 0x1F, 0x40, 0] defaultStore).isSome = true ∧
    (configurePlan [2, 10, 255, 0, 100, 1] defaultStore).isSome = true ∧
    (configurePlan [2, 200, 0, 0xC3, 0x50, 15] defaultStore).isSome = true ∧
    (∀ args ∈ [[1, 0, 199, 0, 201, 0], [1, 0, 200, 0, 200, 0], [1, 0, 200, 0x1F, 0x41, 0], [1, 0, 200, 0, 201, 4],
      [2, 9, 0, 0, 100, 1], [2, 201, 0, 0, 100, 1], [2, 10, 0, 0, 99, 1], [2, 10, 0, 0xC3, 0x51, 1],
      [2, 10, 0, 0, 100, 0], [2, 10, 0, 0, 100, 16], [0, 0, 200, 0, 201, 0], [1, 0, 200, 0, 201]],
      configurePlan args defaultStore = none) ∧
    configureLimits [0x12, 0x40] defaultStore = none ∧ configureLimits [0x1A, 0] defaultStore = none ∧
    configureLimits [0x22, 0] defaultStore = none := by decide +kernel

theorem witness_RefusalsFollowTheOrderOfChecks :
    (node .setup .frame .quietWait).HearsRequest (ask 40 []).octets (ask 40 []) ∧
    (node .setup .frame .quietWait).HearsRequest (ask 2 []).octets (ask 2 []) ∧
    (node .setup .frame .quietWait).HearsRequest (ask 2 [63]).octets (ask 2 [63]) ∧
    (node .setup .frame .quietWait).HearsRequest (ask 18 [1]).octets (ask 18 [1]) ∧
    (node .setup .frame .quietWait).HearsRequest (ask 1 [0]).octets (ask 1 [0]) := by decide +kernel

theorem witness_RefusalsWithoutArguments :
    (node .setup .frame .quietWait).HearsRequest (ask 19 []).octets (ask 19 []) ∧
    (node .active .frame .request).HearsRequest (ask 36 []).octets (ask 36 []) ∧
    (node .active .frame .request).HearsRequest (ask 33 [3]).octets (ask 33 [3]) ∧
    configurePlan [3] defaultStore = none := by decide +kernel

/-- Refused requests that are not answered: broadcasts, a RESTART with an argument in MUTE, and an effect awaited. -/
theorem witness_RefusalsWithoutAnswer :
    (∀ st ∈ [NodeState.setup, .listen, .active, .mute, .barred],
      (node st .frame .quietWait).HearsBroadcast (tell 19 [0]).octets (tell 19 [0]) ∧
      (node st .frame .quietWait).HearsBroadcast (tell 36 [0]).octets (tell 36 [0]) ∧
      (node st .frame .quietWait).HearsBroadcast (tell 19 []).octets (tell 19 []) ∧
      (node st .frame .quietWait).HearsBroadcast (tell 36 []).octets (tell 36 []) ∧
      (node st .frame .quietWait).node.state = st) ∧
    (node .mute .frame .request).Hearing ∧ (node .mute .frame .request).sampling = true ∧
    requestOf (ask 19 [0]).octets = some (ask 19 [0]) ∧ (ask 19 [0]).target = (node .mute .frame .request).own ∧
    (awaiting (node .listen .frame .request) .restart).HearsBroadcast (tell 36 []).octets (tell 36 []) := by decide +kernel

theorem test_refused_broadcast_keeps_awaited_effect :
    after (.closeSetup (tell 36 []).octets) (awaiting (node .listen .frame .request) .restart) (fun t =>
      t.handler.awaited == .restart && t.node.state == .listen && t.line.cond == .gap && t.line.slot == .empty &&
        t.log.records == []) = true := by decide +kernel

theorem witness_UnknownCode :
    (ask 40 []).code ∉ [1#8, 2#8, 3#8, 4#8, 5#8, 17#8, 18#8, 19#8, 33#8, 34#8, 35#8, 36#8] := by decide

theorem witness_RestartReturnsNodeToListen :
    (∀ st ∈ [NodeState.listen, .active, .mute], (node st .frame .request).Hearing ∧
      (node st .frame .request).node.state = st) ∧
    requestOf (tell 19 []).octets = some (tell 19 []) ∧ requestOf (ask 19 []).octets = some (ask 19 []) ∧
    (ask 19 []).target ≠ 63#6 ∧ (ask 19 []).target = (node .mute .frame .request).own ∧
    (node .mute .frame .request).sampling = true := by decide +kernel

theorem witness_SetupEndsInListen :
    (node .setup .frame .quietWait).node.resetHeld = false ∧ (node .setup .frame .quietWait).node.state = .setup ∧
    (node .setup .frame .quietWait).node.setupTimer.isSome = true ∧
    (node .setup .frame .quietWait).HearsBroadcast (tell 36 []).octets (tell 36 []) := by decide +kernel

theorem witness_SuccessEmptiesSlotAndDeliversOwnPost :
    (∃ s, s = holding (node .active .frame .posting) (.sending (.post ownPost)) ∧ s.Hearing ∧
      s.line.slot = .sending (.post ownPost) ∧ s.round.phase = .posting ∧ s.node.state ≠ .listen) ∧
    ∃ s, s = holding (node .listen .frame .request) (.sending (.answer ownAnswer)) ∧ s.Hearing ∧
      s.line.slot = .sending (.answer ownAnswer) ∧ s.handler.awaited = .none :=
  ⟨⟨_, rfl, by decide +kernel⟩, ⟨_, rfl, by decide +kernel⟩⟩

/-- A node with this run whose answer is SENDING, or WAITS, with this effect awaited. -/
def answering (cond : LineCondition) (sending : Bool) (runLength : Nat) (effect : Awaited) : State :=
  let s := awaiting (node .active cond .request) effect
  s.withLine { s.line with
    slot := if sending then .sending (.answer ownAnswer) else .waiting (.answer ownAnswer), txRun := runLength }

theorem witness_FailedAttemptsKeepPostAndGiveUpAnswer :
    (∃ s, s = holding (node .active .frame .posting) (.sending (.post ownPost)) ∧ s.node.resetHeld = false ∧
      s.line.txRun < 7 ∧ s.line.slot = .sending (.post ownPost) ∧ s.node.dupSuspect = false) ∧
    (∃ s, s = holding (node .active .frame .request) (.sending (.answer ownAnswer)) ∧ s.node.resetHeld = false ∧
      s.line.slot = .sending (.answer ownAnswer) ∧ s.handler.awaited = .none) ∧
    (∃ s, s = holding (node .active .gap .posting) (.waiting (.post ownPost)) ∧ s.node.resetHeld = false ∧
      s.line.slot = .waiting (.post ownPost)) ∧
    ∃ s, s = holding (node .active .gap .request) (.waiting (.answer ownAnswer)) ∧ s.node.resetHeld = false ∧
      s.line.slot = .waiting (.answer ownAnswer) ∧ s.handler.awaited = .none ∧ s.line.cond = .gap :=
  ⟨⟨_, rfl, by decide +kernel⟩, ⟨_, rfl, by decide +kernel⟩, ⟨_, rfl, by decide +kernel⟩, ⟨_, rfl, by decide +kernel⟩⟩

/-- At a run of 7 an arbitration loss and a missed opportunity still apply, and in LISTEN no run is asked for. -/
theorem witness_FailedAttemptsAtRunOf7 :
    (∃ s, s = (holding (node .active .frame .posting) (.sending (.post ownPost))).withLine
        { (holding (node .active .frame .posting) (.sending (.post ownPost))).line with txRun := 7 } ∧
      s.node.resetHeld = false ∧ s.line.txRun = 7 ∧ s.line.slot = .sending (.post ownPost)) ∧
    (∃ s, s = (holding (node .active .gap .posting) (.waiting (.post ownPost))).withLine
        { (holding (node .active .gap .posting) (.waiting (.post ownPost))).line with txRun := 7 } ∧
      s.node.resetHeld = false ∧ s.line.txRun = 7 ∧ s.line.slot = .waiting (.post ownPost)) ∧
    (∃ s, s = answering .frame true 7 .none ∧ s.node.resetHeld = false ∧ s.line.txRun = 7 ∧
      s.line.slot = .sending (.answer ownAnswer) ∧ s.handler.awaited = .none) ∧
    (∃ s, s = answering .gap false 7 .none ∧ s.node.resetHeld = false ∧ s.line.txRun = 7 ∧
      s.line.slot = .waiting (.answer ownAnswer) ∧ s.handler.awaited = .none ∧ s.line.cond = .gap) ∧
    ∃ s, s = holding (node .listen .frame .request) (.sending (.answer ownAnswer)) ∧ s.node.resetHeld = false ∧
      (s.node.state = .active → s.line.txRun < 7) ∧ s.line.slot = .sending (.answer ownAnswer) ∧
      s.handler.awaited = .none :=
  ⟨⟨_, rfl, by decide +kernel⟩, ⟨_, rfl, by decide +kernel⟩, ⟨_, rfl, by decide +kernel⟩, ⟨_, rfl, by decide +kernel⟩,
    ⟨_, rfl, by decide +kernel⟩⟩

theorem witness_EighthFailureMutesNode : ∃ s : State, s.node.resetHeld = false ∧ s.node.state = .active ∧
    s.line.txRun = 7 ∧ s.line.slot = .sending (.post ownPost) ∧ s.node.dupSuspect = false :=
  ⟨(node .active .frame .posting).withLine
    { (node .active .frame .posting).line with txRun := 7, slot := .sending (.post ownPost) }, by decide +kernel⟩

theorem witness_EighthFailureMutesNode_answer : ∃ s, s = answering .frame true 7 .none ∧ s.node.resetHeld = false ∧
    s.node.state = .active ∧ s.line.txRun = 7 ∧ s.line.slot = .sending (.answer ownAnswer) ∧
    s.handler.awaited = .none := ⟨_, rfl, by decide +kernel⟩

/-- A failed answer with each effect awaited, below the run of 8 and at it, and outside ACTIVE. -/
theorem witness_FailedAnswer :
    (∀ effect ∈ [Awaited.none, .quiet 3, .restart, .closeSetup], ∀ n ∈ [6, 7], ∃ s, s = answering .frame true n effect ∧
      s.node.resetHeld = false ∧ s.line.slot = .sending (.answer ownAnswer) ∧ s.node.state = .active ∧
      s.line.txRun = n ∧ s.handler.awaited = effect) ∧
    (node .listen .frame .request).node.state ≠ .active :=
  ⟨fun effect h n h' => ⟨_, rfl, by revert effect n; decide +kernel⟩, by decide +kernel⟩

/-- Section 4.5: the answer of a QUIET that completes the run of 8, in both orders. -/
theorem test_quiet_at_run_of_eight :
    let first := run (answering .frame true 7 (.quiet 3)) (.collision .answerReport)
    let second := run (answering .frame true 7 (.quiet 3)) (.collision .otherReport)
    first.node.state = .mute ∧ first.round.muteCount = 3 ∧ first.log.records = [] ∧ first.line.txRun = 0 ∧
    second.node.state = .mute ∧ second.round.muteCount = 3 ∧ second.log.records = [⟨.txErrorRun, 5, 7, 1⟩] ∧
    second.line.txRun = 0 := by decide +kernel

/-- An answer in the slot at a recognized mark, SENDING or WAITING, with each effect awaited. -/
theorem witness_AnswerAtMark :
    (∀ effect ∈ [Awaited.none, .quiet 3, .restart, .closeSetup], ∀ sending : Bool, ∃ s,
      s = answering .longHold sending 0 effect ∧ s.node.resetHeld = false ∧ s.line.cond = .longHold ∧
      s.line.slot = (if sending then .sending (.answer ownAnswer) else .waiting (.answer ownAnswer)) ∧
      s.handler.awaited = effect ∧ s.node.state ≠ .setup) ∧
    ∃ s, s = awaiting (holding (node .setup .longHold .quietWait) (.sending (.answer ownAnswer))) .closeSetup ∧
      s.node.resetHeld = false ∧ s.line.cond = .longHold ∧ s.handler.awaited = .closeSetup ∧ s.node.state = .setup :=
  ⟨fun effect h sending => ⟨_, rfl, by revert effect sending; decide +kernel⟩, ⟨_, rfl, by decide +kernel⟩⟩

theorem witness_AnswerEndCarriesOutAwaitedEffect :
    (∃ s, s = awaiting (holding (node .active .frame .request) (.sending (.answer ownAnswer))) (.quiet 3) ∧
      s.node.resetHeld = false ∧ s.line.cond = .frame ∧ s.line.slot = .sending (.answer ownAnswer) ∧
      s.handler.awaited = .quiet 3 ∧ s.node.state = .active) ∧
    (∃ s, s = awaiting (holding (node .listen .gap .request) (.waiting (.answer ownAnswer))) .restart ∧
      s.node.resetHeld = false ∧ s.line.cond = .gap ∧ s.line.slot = .waiting (.answer ownAnswer) ∧
      s.handler.awaited = .restart ∧ s.node.state = .listen) ∧
    (∃ s, s = awaiting (holding (node .setup .frame .quietWait) (.sending (.answer ownAnswer))) .closeSetup ∧
      s.node.resetHeld = false ∧ s.handler.awaited = .closeSetup ∧ s.node.state = .setup ∧ s.own ≠ 63#6) ∧
    ∃ s, s = awaiting (holding (node .listen .frame .quietWait) (.sending (.answer ownAnswer))) .closeSetup ∧
      s.handler.awaited = .closeSetup ∧ s.node.state = .listen :=
  ⟨⟨_, rfl, by decide +kernel⟩, ⟨_, rfl, by decide +kernel⟩, ⟨_, rfl, by decide +kernel⟩, ⟨_, rfl, by decide +kernel⟩⟩

theorem witness_ExpiriesClaimMarks :
    (∀ st ∈ [NodeState.listen, .barred, .active, .mute], ∃ s, s = node st .opened .request ∧
      s.node.resetHeld = false ∧ s.round.epochTimer.isSome = true ∧ s.node.state = st ∧ s.sampling = true ∧
      s.line.markHold = false ∧ s.round.owed = none) ∧
    (nodeOf listener .active .opened .request).sampling = false ∧ (node .mute .opened .request).round.muteCount = 1 ∧
    (2#8).toNat = 2 ∧ (node .listen .opened .request).round.listenTimer.isSome = true ∧
    owing.round.owed.isSome = true := by
  refine ⟨fun st h => ⟨_, rfl, ?_⟩, by decide +kernel⟩
  revert st
  decide +kernel

/-- The states in which a claim is not made: a mark held, and a mark owed, in ACTIVE, MUTE and LISTEN. -/
theorem witness_ExpiriesClaimNothing :
    ∀ st ∈ [NodeState.active, .mute, .listen], ∀ held : Bool, ∃ s : State, s =
        ((node st .longHold .request).withLine { (node st .longHold .request).line with markHold := held }).withRound
          { (node st .longHold .request).round with owed := if held then none else some .frameOrGap } ∧
      s.node.resetHeld = false ∧ s.node.state = st ∧ s.sampling = true ∧ s.round.epochTimer.isSome = true ∧
      (st = .mute → s.round.muteCount = 1) ∧ (st = .listen → s.round.listenTimer.isSome = true) ∧
      (s.line.markHold = true ∨ s.round.owed.isSome = true) := by
  intro st hst held
  refine ⟨_, rfl, ?_⟩
  revert st held
  decide +kernel

/-- The cases of the round count: a mark whose RESTART came before the instant, one whose RESTART came after it, a mark
alone, and a broadcast RESTART. -/
theorem witness_RoundCountMoves :
    (answering .longHold false 0 .restart).handler.awaited = .restart ∧
    (answering .longHold false 0 .restart).line.slot.hasAnswer = true ∧
    (answering .longHold false 0 .restart).round.roundCount = 5 ∧
    (run (answering .longHold false 0 .restart) (.markRecognized .answerReport)).round.roundCount = 1 ∧
    (run (answering .longHold false 0 .restart) (.markRecognized .otherReport)).round.roundCount = 0 ∧
    (run (answering .longHold false 0 .none) (.markRecognized .otherReport)).round.roundCount =
      (answering .longHold false 0 .none).round.roundCount + 1 ∧
    (run (node .active .frame .request) (.restart (tell 19 []).octets)).round.roundCount = 0 := by decide +kernel

/-- The hypotheses of the statements over all commands: a command that answers a next state. -/
theorem witness_AllCommands : ∃ t, exec .markEnd (node .active .marked .mark) = .next t ∧
    Instr.markEnd ≠ .resetAsserted := ⟨_, rfl, by decide⟩

theorem witness_LogAndCountersStopAtTheirMaximum : EventLog.cleared.records.length < 16 ∧
    fullLog.records.length = 16 := by decide

theorem witness_StepKeepsLists : (node .active .gap .posting).LogBounded ∧
    (node .active .gap .posting).table.intake = [] ∧ (node .active .gap .posting).line.slot = .empty ∧
    (node .active .gap .posting).RunOk ∧ (node .active .gap .posting).SilentOk ∧
    (node .active .gap .posting).MeasuringOk := by decide +kernel

/-- Every invariant holds in a state from which a step is taken. -/
theorem witness_StepKeepsInvariants :
    (node .active .gap .posting).StoreOk ∧ (node .active .gap .posting).AlarmOk ∧
    (node .active .gap .posting).PhaseOk ∧ (node .active .gap .posting).TimersOk ∧
    (node .active .gap .posting).ReceiverOk ∧ (node .active .gap .posting).AdoptionOk ∧
    (node .active .gap .posting).lapseLimit ≠ 0 ∧
    (node .active .gap .posting).table = Table.cleared ∧ (node .active .gap .posting).groups = Groups.cleared ∧
    step (node .active .gap .posting) = .next (node .active .gap .posting) :=
  ⟨⟨by decide +kernel, by decide +kernel, by simp [node, nodeOf, State.atRelease, Handler.atRelease]⟩, by decide +kernel, by decide +kernel, by decide +kernel,
    by decide +kernel, by decide +kernel, by decide +kernel, rfl, rfl, by simp [step, node, nodeOf, State.atRelease]⟩

/-- An entry right after reset keeps the rule of the miss run, and so does a group record. -/
theorem witness_ClearedRecordsOk : Entry.vacant.Ok 3 ∧ GroupRecord.cleared.Ok ∧ (node .mute .gap .request).round.muteCount ≠ 0#8 :=
  ⟨rfl, ⟨rfl, rfl⟩, by decide +kernel⟩

end Sys2Proof.Tests
end

section
/-! PROOFS. The frame check (R23): one bit into the register, a short message against it, and the two check octets. -/

namespace Sys2Proof.Machine

/-! ### One message bit into the register -/

/-- Equal front bits shift the register; different ones also add the generator's low terms. -/
theorem checkBit_eq (r : BitVec 16) (b : Bool) :
    checkBit r b = if r.msb = b then r <<< 1 else (r <<< 1) ^^^ (1#16 <<< 12 ||| 1#16 <<< 5 ||| 1#16) := by
  by_cases h : r.msb = b <;> simp [checkBit, h]

/-- A message bit equal to the register's front bit shifts the register. -/
theorem checkBit_of_msb_eq {r : BitVec 16} {b : Bool} (h : r.msb = b) : checkBit r b = r <<< 1 := by
  rw [checkBit_eq, if_pos h]

/-- The constant term of the generator: the last bit of the register tells whether the message bit differed from the front
bit. -/
theorem getMsbD_last_checkBit (r : BitVec 16) (b : Bool) : (checkBit r b).getMsbD 15 = (r.msb != b) := by
  rw [checkBit_eq]
  by_cases h : r.msb = b
  · simp [h]
  · simp [h, BitVec.getMsbD]

/-! ### A message of at most 16 bits against the register -/

/-- A message of at most 16 bits clears the register exactly when the register held that message, front bit first, followed
by zeros. -/
theorem foldl_checkBit_eq_zero_iff (bits : List Bool) (r : BitVec 16) (short : bits.length ≤ 16) :
    bits.foldl checkBit r = 0#16 ↔ ∀ i, r.getMsbD i = bits.getD i false := by
  induction bits generalizing r with
  | nil =>
    simp only [List.foldl_nil, List.getD_nil]
    exact ⟨fun h i => by simp [h], fun h => BitVec.eq_of_getMsbD_eq fun i _ => by simp [h]⟩
  | cons b bits ih =>
    have short' : bits.length ≤ 15 := Nat.le_of_succ_le_succ short
    rw [List.foldl_cons, ih _ (by omega)]
    constructor
    · intro later
      have front : r.msb = b := by
        have last := later 15
        rw [getMsbD_last_checkBit, List.getD_eq_default _ _ short'] at last
        simpa using last
      intro i
      cases i with
      | zero => simpa [BitVec.msb] using front
      | succ i =>
        have here := later i
        rw [checkBit_of_msb_eq front, BitVec.getMsbD_shiftLeft] at here
        simpa using here
    · intro all i
      have front : r.msb = b := by simpa [BitVec.msb] using all 0
      rw [checkBit_of_msb_eq front, BitVec.getMsbD_shiftLeft]
      simpa using all (i + 1)

/-! ### The two check octets -/

/-- Bit 7 of an octet is sent first (R21). -/
theorem getD_octetBits (o : Byte) (i : Nat) : (octetBits o).getD i false = o.getMsbD i :=
  match i with
  | 0 | 1 | 2 | 3 | 4 | 5 | 6 | 7 => rfl
  | i + 8 => by rw [List.getD_eq_default _ _ (Nat.le_add_left 8 i), BitVec.getMsbD_of_ge _ _ (Nat.le_add_left 8 i)]

/-- The bits of two octets, in the order sent, are those of the 16-bit field they make, front bit first. -/
theorem getD_octetBits_append (hi lo : Byte) (i : Nat) :
    (octetBits hi ++ octetBits lo).getD i false = (hi ++ lo).getMsbD i := by
  have eight : (octetBits hi).length = 8 := rfl
  rw [BitVec.getMsbD_append]
  split_ifs with h
  · rw [List.getD_append_right _ _ _ _ (eight ▸ h), eight, getD_octetBits]
  · rw [List.getD_append _ _ _ _ (eight ▸ Nat.lt_of_not_le h), getD_octetBits]

/-- The check over a body and two octets more is the register after the 16 bits of these octets. -/
theorem check_append_pair (body : List Byte) (hi lo : Byte) :
    check (body ++ [hi, lo]) = (octetBits hi ++ octetBits lo).foldl checkBit (check body) := by
  rw [check_append, List.foldl_append]
  rfl

/-- The second method of judging: the check over the whole frame is 0 exactly when the check octets are those of the body. -/
theorem check_append_pair_eq_zero_iff (body : List Byte) (hi lo : Byte) :
    check (body ++ [hi, lo]) = 0#16 ↔ hi ++ lo = check body := by
  rw [check_append_pair, foldl_checkBit_eq_zero_iff _ _ (by rfl)]
  simp only [getD_octetBits_append]
  exact ⟨fun same => BitVec.eq_of_getMsbD_eq fun i _ => (same i).symm, fun h i => by rw [h]⟩

/-- The manual's example. -/
theorem check_manual_example : check [49, 50, 51, 52, 53, 54, 55, 56, 57] = 10673#16 := by decide +kernel

end Sys2Proof.Machine

namespace Sys2Proof

open Machine

/-- Settles O6: the generator's constant term makes the register's front bits readable from its last bit, so the two check
octets clear the register exactly when they are what it held. -/
theorem checkOfR23 : Obligations.CheckOfR23 := by
  refine ⟨rfl, checkBit_eq, fun octets o => check_append octets [o], check_manual_example, ?_, ?_, ?_⟩
  · rw [withCheck_eq, check_manual_example]; rfl
  · exact fun body => ⟨_, _, withCheck_eq body, join16_extract (check body)⟩
  · exact check_append_pair_eq_zero_iff

end Sys2Proof
end

section
/-! PROOFS. Completion of a count (section 5.5): the stability check (R88), the band check (R89), the clamp (R90), and the
quality they decide. -/

namespace Sys2Proof.Machine

/-! ### The stability check and the band check -/

/-- The two truncated differences are the distance of the half counts. -/
theorem halfDifference_eq_natAbs (c1 c2 : Nat) : halfDifference c1 c2 = ((c1 : Int) - c2).natAbs := by
  unfold halfDifference
  omega

theorem unstable_iff (p : Plan) (c1 c2 : Nat) :
    unstable p c1 c2 = true ↔ p.tolerance.toNat * (c1 + c2) < ((c1 : Int) - c2).natAbs * 1000000 := by
  simp [unstable, halfDifference_eq_natAbs]

theorem outOfBand_iff (p : Plan) (c : Nat) :
    outOfBand p c = true ↔ 8000000 * p.count < p.bandLow.toNat * c ∨ p.bandHigh.toNat * c < 8000000 * p.count := by
  simp [outOfBand]

/-- The window W is 10,000,000·N/band-low rounded down (R86), so band-low·C is at most 10,000,000·N within it. -/
theorem bandLow_mul_le_of_le_countWindow {p : Plan} {c : Nat} (low : 0 < p.bandLow.toNat) (within : c ≤ countWindow p) :
    p.bandLow.toNat * c ≤ 10000000 * p.count := by
  rw [Nat.mul_comm]
  exact (Nat.le_div_iff_mul_le low).mp within

/-! ### The clamp and the quality -/

/-- The clamp leaves alone exactly the values in its range. -/
theorem clampValue_eq_self_iff (v : Int) : clampValue v = v ↔ v.natAbs ≤ 8388607 := by
  unfold clampValue
  omega

/-- Every reading of a completed count carries the clamped value, whatever its quality. -/
theorem completedReading_value (p : Plan) (cal : Cal) (c1 c2 : Nat) :
    (completedReading p cal c1 c2).value =
      some (BitVec.ofInt 24 (clampValue (unclampedValue cal (rawReading p.count (c1 + c2))))) := by
  simp only [completedReading, ne_eq, ite_not]
  split_ifs <;> rfl

/-- The order of the qualities (R91), the clamp told by the exact value. -/
theorem completedReading_quality (p : Plan) (cal : Cal) (c1 c2 : Nat) :
    (completedReading p cal c1 c2).quality =
      if unstable p c1 c2 then .unstable
      else if outOfBand p (c1 + c2) then .outOfBand
      else if (unclampedValue cal (rawReading p.count (c1 + c2))).natAbs ≤ 8388607 then .good
      else .clipped := by
  simp only [completedReading, ne_eq, clampValue_eq_self_iff, ite_not]
  split_ifs <;> rfl

/-- A stable count in the band whose exact value is past the clamp: 4000 Hz under the default plan at the largest gain. -/
theorem completedReading_clipped_example :
    completedReading defaultPlan ⟨0, 32767⟩ 128000 128000 = .clipped 8388607 := by
  decide +kernel

end Sys2Proof.Machine

namespace Sys2Proof

open Machine

/-- Settles O32: each check is its exact comparison, and the qualities are read off their order with the clamp told by the
exact value. -/
theorem stabilityAndBandDecideQuality : Obligations.StabilityAndBandDecideQuality := by
  refine ⟨fun p c1 c2 => ?_, fun p c => ⟨outOfBand_iff p c, fun low within => ?_⟩, fun p cal c1 c2 => ?_⟩
  · rw [unstable_iff]
    exact_mod_cast Iff.rfl
  · have bound := bandLow_mul_le_of_le_countWindow low within
    omega
  · refine ⟨completedReading_value p cal c1 c2, ?_⟩
    rw [completedReading_quality]
    refine ⟨fun unst => ?_, fun stable out => ?_, fun stable inside past => ?_, fun stable inside fits => ?_⟩
    · simp [unst]
    · simp [stable, out]
    · simp [stable, inside, Nat.not_le.mpr past]
    · simp [stable, inside, fits]

end Sys2Proof
end

section
/-! PROOFS. The fields of a group record (section 8.2): the exact sum (R140), the extremes with their stations (R141), and the
mean rounded toward zero (R142). -/

namespace Sys2Proof.Machine

/-! ### Contributors -/

/-- A contributor is the source and the usable value of a post that carries the group (R139). -/
theorem mem_contributors {posts : List Post} {g : Fin 8} {c : BitVec 6 × Int} :
    c ∈ contributors posts g ↔
      ∃ p ∈ posts, p.group.toFin = g ∧ ∃ v, p.reading.usable = some v ∧ (p.source, v.toInt) = c := by
  simp [contributors]

/-- A usable value is the value the reading carries. -/
theorem Reading.value_of_usable {r : Reading} {v : BitVec 24} (h : r.usable = some v) : r.value = some v := by
  cases r with
  | good | clipped => exact h
  | unstable | outOfBand | noSignal | overrun | notSampled => cases h

theorem length_contributors_le (posts : List Post) (g : Fin 8) : (contributors posts g).length ≤ posts.length :=
  List.length_filterMap_le _ _

/-- A contributing value is a 24-bit signed number (R140). -/
theorem contributor_value_range (posts : List Post) (g : Fin 8) :
    ∀ c ∈ contributors posts g, -8388608 ≤ c.2 ∧ c.2 ≤ 8388607 := by
  intro c h
  obtain ⟨_, _, _, v, _, rfl⟩ := mem_contributors.mp h
  exact ⟨v.le_toInt, Int.le_of_lt_add_one v.toInt_lt⟩

/-- Where no post carries −8,388,608, every contributing value is within ±8,388,607 (R140). -/
theorem clamped_contributor_value_range {posts : List Post} (g : Fin 8)
    (clamped : ∀ p ∈ posts, p.reading.value ≠ some 0x800000#24) : ∀ c ∈ contributors posts g, -8388607 ≤ c.2 := by
  intro c h
  have range := contributor_value_range posts g c h
  obtain ⟨p, hp, _, v, usable, rfl⟩ := mem_contributors.mp h
  have differs : v.toInt ≠ (0x800000#24).toInt := fun same =>
    clamped p hp (BitVec.eq_of_toInt_eq same ▸ Reading.value_of_usable usable)
  have lowest : (0x800000#24).toInt = -8388608 := by decide
  simp only at range ⊢
  omega

/-! ### The sum -/

/-- The sum is taken over the usable values of the posts that carry the group (R139, R140). -/
theorem contributorSum_contributors (posts : List Post) (g : Fin 8) :
    contributorSum (contributors posts g) =
      ((posts.filter fun p => p.group.toNat = g.val).filterMap fun p => p.reading.usable.map (·.toInt)).sum := by
  rw [contributorSum, contributors, List.map_filterMap, List.filterMap_filter]
  congr 2
  funext p
  by_cases carries : p.group.toNat = g.val
  · have same : p.group.toFin = g := Fin.ext carries
    simp [carries, same, Function.comp_def]
  · have other : p.group.toFin ≠ g := fun same => carries (congrArg Fin.val same)
    simp [carries, other]

theorem length_mul_le_contributorSum {cs : List (BitVec 6 × Int)} {low : Int} (h : ∀ c ∈ cs, low ≤ c.2) :
    cs.length * low ≤ contributorSum cs := by
  have bound := List.card_nsmul_le_sum (cs.map (·.2)) low (List.forall_mem_map.mpr h)
  rwa [List.length_map, nsmul_eq_mul] at bound

theorem contributorSum_le_length_mul {cs : List (BitVec 6 × Int)} {high : Int} (h : ∀ c ∈ cs, c.2 ≤ high) :
    contributorSum cs ≤ cs.length * high := by
  have bound := List.sum_le_card_nsmul (cs.map (·.2)) high (List.forall_mem_map.mpr h)
  rwa [List.length_map, nsmul_eq_mul] at bound

/-- Sixty-two 24-bit values stay within the bounds of R140. -/
theorem contributorSum_range {posts : List Post} (g : Fin 8) (few : posts.length ≤ 62) :
    -520093696 ≤ contributorSum (contributors posts g) ∧ contributorSum (contributors posts g) ≤ 520093634 := by
  have count := length_contributors_le posts g
  have range := contributor_value_range posts g
  have below := length_mul_le_contributorSum fun c hc => (range c hc).1
  have above := contributorSum_le_length_mul fun c hc => (range c hc).2
  omega

/-- The sum fits its signed 32-bit field (R140). -/
theorem toInt_ofInt_contributorSum {posts : List Post} (g : Fin 8) (few : posts.length ≤ 62) :
    (BitVec.ofInt 32 (contributorSum (contributors posts g))).toInt = contributorSum (contributors posts g) := by
  have range := contributorSum_range g few
  exact BitVec.toInt_ofInt_eq_self (by decide) (by omega) (by omega)

/-- The lower bound of R140 for posts of CN62 nodes. -/
theorem clamped_contributorSum_range {posts : List Post} (g : Fin 8) (few : posts.length ≤ 62)
    (clamped : ∀ p ∈ posts, p.reading.value ≠ some 0x800000#24) :
    -520093634 ≤ contributorSum (contributors posts g) := by
  have count := length_contributors_le posts g
  have below := length_mul_le_contributorSum (clamped_contributor_value_range g clamped)
  omega

/-! ### The extremes -/

/-- A choice that picks one of two, standing in `R` to both, picks over a list a member standing in `R` to all. -/
theorem foldl_choice {α : Type} (R : α → α → Prop) {choice : α → α → α} (trans : ∀ {a b c}, R a b → R b c → R a c)
    (takes : ∀ a b, (choice a b = a ∨ choice a b = b) ∧ R (choice a b) a ∧ R (choice a b) b) (c : α) (rest : List α) :
    rest.foldl choice c ∈ c :: rest ∧ ∀ d ∈ c :: rest, R (rest.foldl choice c) d := by
  induction rest generalizing c with
  | nil =>
    obtain ⟨same, self, _⟩ := takes c c
    rw [or_self_iff.mp same] at self
    exact ⟨List.mem_cons_self, List.forall_mem_singleton.mpr self⟩
  | cons d rest ih =>
    obtain ⟨isMember, toAll⟩ := ih (choice c d)
    obtain ⟨toChosen, toRest⟩ := List.forall_mem_cons.mp toAll
    obtain ⟨either, toFirst, toSecond⟩ := takes c d
    simp only [List.foldl_cons, List.forall_mem_cons]
    refine ⟨?_, trans toChosen toFirst, trans toChosen toSecond, toRest⟩
    rcases List.mem_cons.mp isMember with chosen | later
    · rw [chosen]
      rcases either with first | second
      · simp [first]
      · simp [second]
    · exact List.mem_cons_of_mem _ (List.mem_cons_of_mem _ later)

/-- `a` goes before `b` for the minimum: no greater value, and no higher station where the values are equal (R141). -/
def BeforeForMinimum (a b : BitVec 6 × Int) : Prop := a.2 ≤ b.2 ∧ (b.2 = a.2 → a.1.toNat ≤ b.1.toNat)

/-- `a` goes before `b` for the maximum: no lesser value, and no higher station where the values are equal (R141). -/
def BeforeForMaximum (a b : BitVec 6 × Int) : Prop := b.2 ≤ a.2 ∧ (b.2 = a.2 → a.1.toNat ≤ b.1.toNat)

theorem BeforeForMinimum.trans {a b c : BitVec 6 × Int} (ab : BeforeForMinimum a b) (bc : BeforeForMinimum b c) :
    BeforeForMinimum a c := by
  unfold BeforeForMinimum at *
  omega

theorem BeforeForMaximum.trans {a b c : BitVec 6 × Int} (ab : BeforeForMaximum a b) (bc : BeforeForMaximum b c) :
    BeforeForMaximum a c := by
  unfold BeforeForMaximum at *
  omega

theorem lesser_takes (a b : BitVec 6 × Int) :
    (lesser a b = a ∨ lesser a b = b) ∧ BeforeForMinimum (lesser a b) a ∧ BeforeForMinimum (lesser a b) b := by
  unfold lesser BeforeForMinimum
  split_ifs with h <;> rw [BitVec.lt_def] at h
  · exact ⟨.inr rfl, by omega⟩
  · exact ⟨.inl rfl, by omega⟩

theorem greater_takes (a b : BitVec 6 × Int) :
    (greater a b = a ∨ greater a b = b) ∧ BeforeForMaximum (greater a b) a ∧ BeforeForMaximum (greater a b) b := by
  unfold greater BeforeForMaximum
  split_ifs with h <;> rw [BitVec.lt_def] at h
  · exact ⟨.inr rfl, by omega⟩
  · exact ⟨.inl rfl, by omega⟩

theorem extremesOf_eq_none_iff (cs : List (BitVec 6 × Int)) : extremesOf cs = none ↔ cs = [] := by
  cases cs <;> simp [extremesOf]

/-- What the extremes of contributors are: the first for the minimum, the first for the maximum, and the truncated quotient
(R141, R142). -/
theorem extremesOf_spec {cs : List (BitVec 6 × Int)} {x : Extremes} (h : extremesOf cs = some x) :
    ((x.minStation, x.minimum) ∈ cs ∧ ∀ c ∈ cs, BeforeForMinimum (x.minStation, x.minimum) c) ∧
    ((x.maxStation, x.maximum) ∈ cs ∧ ∀ c ∈ cs, BeforeForMaximum (x.maxStation, x.maximum) c) ∧
    x.mean = (contributorSum cs).tdiv cs.length := by
  cases cs with
  | nil => cases h
  | cons c rest =>
    have first := foldl_choice BeforeForMinimum BeforeForMinimum.trans lesser_takes c rest
    have last := foldl_choice BeforeForMaximum BeforeForMaximum.trans greater_takes c rest
    cases h
    exact ⟨first, last, rfl⟩

/-! ### The mean -/

/-- The truncated quotient has the sign of the dividend, and its magnitude is the quotient of the magnitudes. -/
theorem tdiv_rounds_toward_zero (a : Int) {n : Nat} (pos : 0 < n) :
    0 ≤ a.tdiv n * a ∧ (a.tdiv n).natAbs * n ≤ a.natAbs ∧ a.natAbs < ((a.tdiv n).natAbs + 1) * n := by
  have magnitude : (a.tdiv n).natAbs = a.natAbs / n := by rw [Int.natAbs_tdiv]; rfl
  rw [magnitude]
  refine ⟨?_, Nat.div_mul_le_self _ _, Nat.lt_mul_of_div_lt (Nat.lt_succ_self _) pos⟩
  rcases Int.le_total 0 a with nonneg | nonpos
  · exact Int.mul_nonneg (Int.tdiv_nonneg nonneg (Int.natCast_nonneg n)) nonneg
  · have quotient := Int.tdiv_nonneg (Int.neg_nonneg.mpr nonpos) (Int.natCast_nonneg n)
    rw [Int.neg_tdiv, Int.neg_nonneg] at quotient
    exact Int.mul_nonneg_of_nonpos_of_nonpos quotient nonpos

/-- The mean is the sum over the number of contributors, rounded toward zero (R142). -/
theorem mean_rounds_toward_zero {cs : List (BitVec 6 × Int)} {x : Extremes} (h : extremesOf cs = some x) :
    0 ≤ x.mean * contributorSum cs ∧ x.mean.natAbs * cs.length ≤ (contributorSum cs).natAbs ∧
    (contributorSum cs).natAbs < (x.mean.natAbs + 1) * cs.length := by
  obtain ⟨⟨isMember, _⟩, _, mean⟩ := extremesOf_spec h
  rw [mean]
  exact tdiv_rounds_toward_zero _ (List.length_pos_of_mem isMember)

/-- A truncated quotient lies between two integers when the exact one does (R142). -/
theorem tdiv_between {a low high : Int} {n : Nat} (pos : 0 < n) (below : n * low ≤ a) (above : a ≤ n * high) :
    low ≤ a.tdiv n ∧ a.tdiv n ≤ high := by
  have pos' : (0 : Int) < n := by omega
  rw [← Int.mul_tdiv_cancel_left low pos'.ne', ← Int.mul_tdiv_cancel_left high pos'.ne']
  exact ⟨Int.tdiv_le_tdiv pos' below, Int.tdiv_le_tdiv pos' above⟩

/-- The mean lies between the minimum and the maximum (R142). -/
theorem mean_between {cs : List (BitVec 6 × Int)} {x : Extremes} (h : extremesOf cs = some x) :
    x.minimum ≤ x.mean ∧ x.mean ≤ x.maximum := by
  obtain ⟨⟨isMember, least⟩, ⟨_, most⟩, mean⟩ := extremesOf_spec h
  rw [mean]
  exact tdiv_between (List.length_pos_of_mem isMember) (length_mul_le_contributorSum fun c hc => (least c hc).1)
    (contributorSum_le_length_mul fun c hc => (most c hc).1)

/-- The mean fits the 24-bit field (R142). -/
theorem toInt_ofInt_mean {posts : List Post} {g : Fin 8} {x : Extremes} (h : extremesOf (contributors posts g) = some x) :
    (BitVec.ofInt 24 x.mean).toInt = x.mean := by
  obtain ⟨⟨leastIsMember, _⟩, ⟨mostIsMember, _⟩, _⟩ := extremesOf_spec h
  have between := mean_between h
  have least := contributor_value_range posts g _ leastIsMember
  have most := contributor_value_range posts g _ mostIsMember
  exact BitVec.toInt_ofInt_eq_self (by decide) (by omega) (by omega)

end Sys2Proof.Machine

namespace Sys2Proof

open Machine

/-- Settles O29: the sum is bounded contributor by contributor, the extremes are the ends of the two orders their folds
choose by, and the truncated mean stays between them. -/
theorem groupSumExtremesAndMean : Obligations.GroupSumExtremesAndMean := by
  refine ⟨fun posts _ _ g => ⟨?_, fun empty => ?_, fun few => ?_, clamped_contributorSum_range g⟩,
    fun posts _ _ g => ⟨extremesOf_eq_none_iff _, fun x hx => ?_⟩,
    fun posts _ _ g => ⟨fun empty => ?_, fun nonempty => ?_, by decide⟩⟩
  · refine (contributorSum_contributors posts g).trans ?_
    congr 2
    funext p
    cases p.reading <;> rfl
  · exact congrArg contributorSum (List.eq_nil_of_length_eq_zero empty)
  · obtain ⟨below, above⟩ := contributorSum_range g few
    exact ⟨below, above, toInt_ofInt_contributorSum g few⟩
  · obtain ⟨⟨leastIsMember, least⟩, ⟨mostIsMember, most⟩, _⟩ := extremesOf_spec hx
    refine ⟨leastIsMember, mostIsMember, least, most, fun c single => ?_⟩
    rw [single, List.mem_singleton] at leastIsMember mostIsMember
    exact ⟨congrArg Prod.snd leastIsMember, congrArg Prod.snd mostIsMember, congrArg Prod.fst leastIsMember,
      congrArg Prod.fst mostIsMember⟩
  · exact (extremesOf_eq_none_iff _).mpr (List.eq_nil_of_length_eq_zero empty)
  · have present : extremesOf (contributors posts g) ≠ none :=
      mt (extremesOf_eq_none_iff _).mp (List.ne_nil_of_length_pos nonempty)
    obtain ⟨x, hx⟩ := Option.ne_none_iff_exists'.mp present
    obtain ⟨sign, atMost, beyond⟩ := mean_rounds_toward_zero hx
    obtain ⟨below, above⟩ := mean_between hx
    exact ⟨x, hx, sign, atMost, beyond, below, above, toInt_ofInt_mean hx⟩

end Sys2Proof
end

section
/-! PROOFS. Stage 2 of a close: the limit evaluation (section 8.4), the incomplete run and the records of both (section 8.5). -/

namespace Sys2Proof.Machine

/-! ### The rows of the table of R148 -/

section
variable {l : LimitRecord} (b : Int)

/-- The row NORMAL: with low below high its two conditions exclude each other. -/
theorem evaluate_normal_eq_iff (ordered : l.low.toInt < l.high.toInt) :
    (LimitState.evaluate .normal l b = .high ↔ l.high.toInt < b) ∧
    (LimitState.evaluate .normal l b = .low ↔ b < l.low.toInt) := by
  simp only [LimitState.evaluate]
  split_ifs with above below
  · exact ⟨iff_of_true rfl above, iff_of_false nofun (by omega)⟩
  · exact ⟨iff_of_false nofun above, iff_of_true rfl below⟩
  · exact ⟨iff_of_false nofun above, iff_of_false nofun below⟩

/-- The row HIGH: the table decides for LOW before NORMAL. -/
theorem evaluate_high_eq_iff :
    (LimitState.evaluate .high l b = .low ↔ b < l.low.toInt) ∧
    (LimitState.evaluate .high l b = .normal ↔ l.low.toInt ≤ b ∧ b ≤ l.high.toInt - l.hysteresis.toNat) := by
  simp only [LimitState.evaluate]
  split_ifs with below back
  · exact ⟨iff_of_true rfl below, iff_of_false nofun (by omega)⟩
  · exact ⟨iff_of_false nofun below, iff_of_true rfl ⟨Int.not_lt.mp below, back⟩⟩
  · exact ⟨iff_of_false nofun below, iff_of_false nofun fun inside => back inside.2⟩

/-- The row LOW: the table decides for HIGH before NORMAL. -/
theorem evaluate_low_eq_iff :
    (LimitState.evaluate .low l b = .high ↔ l.high.toInt < b) ∧
    (LimitState.evaluate .low l b = .normal ↔ l.low.toInt + l.hysteresis.toNat ≤ b ∧ b ≤ l.high.toInt) := by
  simp only [LimitState.evaluate]
  split_ifs with above back
  · exact ⟨iff_of_true rfl above, iff_of_false nofun (by omega)⟩
  · exact ⟨iff_of_false nofun above, iff_of_true rfl ⟨back, Int.not_lt.mp above⟩⟩
  · exact ⟨iff_of_false nofun above, iff_of_false nofun fun inside => back inside.1⟩

end

/-! ### Limit state and run of a group -/

section
variable {l : LimitRecord} {r : GroupRecord}

theorem nextLimit_of_unwatched (unwatched : l.watched = false) (st : LimitState) : nextLimit l r st = st := by
  simp [nextLimit, unwatched]

theorem nextLimit_of_incomplete (incomplete : r.complete = false) (st : LimitState) : nextLimit l r st = st := by
  simp [nextLimit, incomplete]

theorem nextLimit_of_basisValue {b : Int} (watched : l.watched = true) (complete : r.complete = true)
    (basis : basisValue l.basis r = some b) (st : LimitState) : nextLimit l r st = st.evaluate l b := by
  simp [nextLimit, watched, complete, basis]

theorem nextRun_of_complete (complete : r.complete = true) (run : BitVec 8) : nextRun r run = 0#8 := if_pos complete

theorem nextRun_of_incomplete (incomplete : r.complete = false) (run : BitVec 8) : nextRun r run = satInc run := by
  simp [nextRun, incomplete]

/-! ### The record of a group -/

/-- At a complete close a change of the limit state, and nothing else, is recorded (R149). -/
theorem groupEvent_of_complete (complete : r.complete = true) (before : GroupCell) (g : Fin 8) :
    groupEvent l r before g =
      if nextLimit l r before.limit = before.limit then none
      else some (.groupLimit, 0#6, groupDetail g (nextLimit l r before.limit).code.toNat) := by
  rw [groupEvent, if_pos complete, ite_not]
  rfl

/-- At an incomplete close the run's arrival at the setting of a watched group, and nothing else, is recorded (R150). -/
theorem groupEvent_of_incomplete (incomplete : r.complete = false) (before : GroupCell) (g : Fin 8) :
    groupEvent l r before g =
      if l.watched = true ∧ l.rounds ≠ 0#4 ∧ (nextRun r before.run).toNat = l.rounds.toNat then
        some (.groupIncomplete, 0#6, groupDetail g l.rounds.toNat)
      else none := by
  rw [groupEvent, if_neg (by simp [incomplete])]
  rfl

theorem groupEvent_of_unwatched (unwatched : l.watched = false) (before : GroupCell) (g : Fin 8) :
    groupEvent l r before g = none := by
  cases complete : r.complete with
  | true => rw [groupEvent_of_complete complete, if_pos (nextLimit_of_unwatched unwatched _)]
  | false => rw [groupEvent_of_incomplete complete, if_neg (by simp [unwatched])]

end

/-! ### The worked sequence of section 8.9 -/

/-- The limit record of group 2 in the sequence. -/
def sequenceLimit : LimitRecord :=
  { watched := true, basis := .mean, rounds := 2, high := 120000, low := BitVec.ofInt 32 (-50000), hysteresis := 10000 }

/-- The record of group 2 at a close of the sequence, from the readings of its stations 5, 7 and 9. -/
def sequenceRecord (five seven nine : Reading) (roundCount : BitVec 16) : GroupRecord :=
  groupRecord [⟨5, 0, 2, five, none, false⟩, ⟨7, 0, 2, seven, none, false⟩, ⟨9, 0, 2, nine, none, false⟩] [5, 7, 9]
    roundCount 2

/-- Round 301: the watched group is complete, enters HIGH on its mean, and is recorded with detail 33. -/
theorem sequence_round301 :
    let r := sequenceRecord (.good 118000) (.good 125000) (.good 121000) 301
    let before : GroupCell := { record := GroupRecord.cleared, limit := .normal, run := 0 }
    r.complete = true ∧ basisValue sequenceLimit.basis r = some 121333 ∧
    nextLimit sequenceLimit r before.limit = .high ∧ groupEvent sequenceLimit r before 2 = some (.groupLimit, 0, 33) := by
  decide +kernel

/-- Round 303: station 7 is missing for the second time, the state holds, and the run is recorded with detail 34. -/
theorem sequence_round303 :
    let r := sequenceRecord (.good 112000) .noSignal (.good 113000) 303
    let before : GroupCell := { record := GroupRecord.cleared, limit := .high, run := 1 }
    r.complete = false ∧ nextLimit sequenceLimit r before.limit = .high ∧ nextRun r before.run = 2 ∧
    groupEvent sequenceLimit r before 2 = some (.groupIncomplete, 0, 34) := by
  decide +kernel

end Sys2Proof.Machine

namespace Sys2Proof

open Machine

/-- Settles O30: the rows of R148 one by one, then the record of a group told by the completeness of its close. -/
theorem closeEvaluatesLimitsAndRuns : Obligations.CloseEvaluatesLimitsAndRuns := by
  refine ⟨fun l b ordered _ => ?_, fun l r before g => ⟨fun unwatched => ?_, fun incomplete => ?_,
    fun watched complete => ⟨nextRun_of_complete complete _, fun b basis => ?_⟩⟩⟩
  · obtain ⟨normalHigh, normalLow⟩ := evaluate_normal_eq_iff b ordered
    obtain ⟨highLow, highNormal⟩ := evaluate_high_eq_iff (l := l) b
    obtain ⟨lowHigh, lowNormal⟩ := evaluate_low_eq_iff (l := l) b
    exact ⟨normalHigh, normalLow, highLow, highNormal, lowHigh, lowNormal⟩
  · exact ⟨nextLimit_of_unwatched unwatched _, groupEvent_of_unwatched unwatched before g⟩
  · exact ⟨nextLimit_of_incomplete incomplete _, nextRun_of_incomplete incomplete _,
      groupEvent_of_incomplete incomplete before g⟩
  · have evaluated : basisValue l.basis r = some b := by rw [← basis]; cases l.basis <;> rfl
    refine ⟨nextLimit_of_basisValue watched complete evaluated _, (groupEvent_of_complete complete before g).trans ?_⟩
    cases nextLimit l r before.limit <;> rfl

end Sys2Proof
end

section
/-! PROOFS. CONFIGURE-CAL (section 9.6): what its argument writes (R175), and how a request that the node hears is delivered
and answered (R156, R162). -/

namespace Sys2Proof.Machine

/-! ### The calibration argument -/

theorem exists_octets_of_length_eq_five {args : List Byte} (five : args.length = 5) :
    ∃ a b c d e : Byte, args = [a, b, c, d, e] := by
  match args, five with
  | [a, b, c, d, e], _ => exact ⟨a, b, c, d, e, rfl⟩

/-- Only an argument of 5 octets is read (R175). -/
theorem configureCal_of_length_ne {args : List Byte} (other : args.length ≠ 5) (s : Store) : configureCal args s = none := by
  unfold configureCal
  split
  · exact absurd rfl other
  · rfl

section
variable {a b c : Byte} (d e : Byte) (s : Store)

/-- With zero in its range both fields are written, whatever the gain (R175). -/
theorem configureCal_of_zero_le (inRange : (a ++ b ++ c).toNat ≤ 6400000) :
    configureCal [a, b, c, d, e] s = some { s with cal := { zero := a ++ b ++ c, gain := d ++ e } } := if_pos inRange

/-- With zero above its range nothing is written, whatever the gain (R175). -/
theorem configureCal_of_lt_zero (above : 6400000 < (a ++ b ++ c).toNat) : configureCal [a, b, c, d, e] s = none :=
  if_neg (Nat.not_le.mpr above)

end

/-- The refused arguments are those of another length and those with zero above its range (R175). -/
theorem configureCal_eq_none_iff (args : List Byte) (s : Store) :
    configureCal args s = none ↔
      args.length ≠ 5 ∨ ∃ a b c d e : Byte, args = [a, b, c, d, e] ∧ 6400000 < (a ++ b ++ c).toNat := by
  constructor
  · intro refused
    refine or_iff_not_imp_left.mpr fun five => ?_
    obtain ⟨a, b, c, d, e, rfl⟩ := exists_octets_of_length_eq_five (not_not.mp five)
    refine ⟨a, b, c, d, e, rfl, Nat.lt_of_not_le fun inRange => ?_⟩
    rw [configureCal_of_zero_le d e s inRange] at refused
    exact Option.some_ne_none _ refused
  · rintro (other | ⟨a, b, c, d, e, rfl, above⟩)
    · exact configureCal_of_length_ne other s
    · exact configureCal_of_lt_zero d e s above

/-! ### A request that the node hears -/

section
variable {s : State} {octets : List Byte} {r : Request}

/-- A sampling node's own station number is not the broadcast target (R26, R59). -/
theorem broadcast_of_target_own (sampling : s.sampling = true) (own : r.target = s.own) : r.broadcast = false := by
  have notBroadcast : s.own ≠ 63#6 := by
    simp only [State.sampling, samplingStation, Bool.and_eq_true, bne_iff_ne] at sampling
    exact sampling.2
  simpa [Request.broadcast, own] using notBroadcast

/-- A single-target request is taken in every state that answers (R156). -/
theorem NodeState.Answers.takes {st : NodeState} (answers : st.Answers) (single : r.broadcast = false) :
    st.takes r = true := by
  rcases answers with rfl | rfl | rfl <;> simp [NodeState.takes, single]

/-- A heard request reaches its handler after the frame's end on the line, which opens the answer window (R9, R32). -/
theorem State.HearsRequest.handled (hears : s.HearsRequest octets r) {accepts : Request → Bool}
    (accepted : accepts r = true) (handle : Request → State → State) :
    s.unlessReset (s.onRequest octets accepts handle) = handle r (s.withLine (s.line.ended true)) := by
  obtain ⟨⟨clear, frame⟩, valid, sampling, own, answers, -⟩ := hears
  have single : r.broadcast = false := broadcast_of_target_own sampling own
  have addressed : s.addressed r = true := by simp [State.addressed, sampling, own]
  have windowOpens : s.line.requestEnd r = s.line.ended true := by rw [Line.requestEnd, single]; rfl
  rw [State.unlessReset_of_clear _ clear,
    State.onRequest_of_taken handle frame valid accepted addressed (answers.takes single), windowOpens]

/-- The answer to a heard request waits in the slot with its effect, over whatever store the handler has written. -/
theorem State.HearsRequest.responded (hears : s.HearsRequest octets r) (h : Handler) (status : Status)
    (payload : List Byte) (effect : Awaited) :
    ((s.withLine (s.line.ended true)).withHandler h).respond r status payload effect =
      { s.answering ⟨s.own, r.code, status.code, payload⟩ effect with handler := { h with awaited := effect } } := by
  obtain ⟨-, -, sampling, own, answers, empty⟩ := hears
  have single : r.broadcast = false := broadcast_of_target_own sampling own
  obtain ⟨notMute, notBarred⟩ : s.node.state ≠ .mute ∧ s.node.state ≠ .barred := by
    rcases answers with state | state | state <;> simp [state]
  exact State.respond_of_target status payload effect single empty nofun notMute notBarred

/-- A heard CONFIGURE request whose argument is refused is answered REFUSED-ARG and nothing else changes (R158, R160). -/
theorem State.HearsRequest.configure_none (hears : s.HearsRequest octets r) :
    (s.withLine (s.line.ended true)).configure r none = s.answering ⟨s.own, r.code, 2, []⟩ .none :=
  hears.responded s.handler .refusedArg [] .none

/-- In SETUP a heard CONFIGURE request writes the store with its digest and is answered DONE (R173, R177). -/
theorem State.HearsRequest.configure_some (hears : s.HearsRequest octets r) (setup : s.node.state = .setup)
    (store : Store) :
    (s.withLine (s.line.ended true)).configure r (some store) =
      { s.answering ⟨s.own, r.code, 0, []⟩ .none with
        handler := { store := store, digest := check store.image, awaited := .none } } := by
  have permitted : (s.withLine (s.line.ended true)).configure r (some store) =
      ((s.withLine (s.line.ended true)).writeStore store).answer r [] := if_pos setup
  rw [permitted, State.answer, State.writeStore, hears.responded]
  simp only [Status.code, Store.digest]

/-- A heard CONFIGURE_CAL has the configuration's meaning with the store its argument writes (R175). -/
theorem exec_configureCal_of_hears (hears : s.HearsRequest octets r) (code : r.code = 34#8) :
    exec (.configureCal octets) s =
      .next ((s.withLine (s.line.ended true)).configure r (configureCal r.args s.handler.store)) :=
  congrArg Host.Outcome.next <|
    hears.handled (by simp [hasCode, code, RequestCode.octet]) handleConfigureCal

end

end Sys2Proof.Machine

namespace Sys2Proof

open Machine

/-- Settles O41: the argument's two outcomes, and what a node in SETUP that hears it makes of each. -/
theorem calibrationArgumentOfR175 : Obligations.CalibrationArgumentOfR175 := by
  refine fun args s => ⟨?_, configureCal_eq_none_iff args s,
    fun octets n r hears code setup => ⟨fun store written => ?_, fun refused => ?_⟩⟩
  · rintro a b c d e rfl inRange
    exact configureCal_of_zero_le d e s inRange
  · have executed := exec_configureCal_of_hears hears code
    rw [written, hears.configure_some setup] at executed
    exact ⟨_, executed, rfl⟩
  · rw [exec_configureCal_of_hears hears code, refused, hears.configure_none, code]
    rfl

end Sys2Proof
end

section
/-! PROOFS. What a command can do, said once: every command but the two of RESET is a chain of moves, each of one block or of
one shared operation, or such a chain that ends in RESTART. The invariants and the rules over all commands are then shown
move by move. -/

namespace Sys2Proof.Machine

/-! ### The moves -/

/-- The receiver's part of the line is consistent (R6). -/
def Line.Receives (l : Line) : Prop :=
  (l.cond = .frame → l.receiving = true) ∧ (l.receiving = true → l.cond = .frame ∨ l.cond = .longHold)

/-- The line goes on without a new frame in the slot, a new mark hold or the eighth failure. -/
structure LineMove (a b : Line) : Prop where
  post : ∀ p, b.slot.post = some p → a.slot.post = some p
  empty : a.slot = .empty → b.slot = .empty
  run : b.txRun = a.txRun ∨ b.txRun < 8
  mark : b.markHold = true → a.markHold = true
  receiver : a.Receives → b.Receives

/-- The node state machine goes on in its node state. -/
structure NodeMove (a b : Node) : Prop where
  state : b.state = a.state
  straps : b.straps = a.straps
  setupTimer : b.setupTimer = a.setupTimer
  adoption : (a.silentMarks ≤ 2 ∧ (a.state ≠ .listen → a.adoption = .none ∧ a.silentMarks = 0 ∧ a.listenClaim = false)) →
    b.silentMarks ≤ 2 ∧ (b.state ≠ .listen → b.adoption = .none ∧ b.silentMarks = 0 ∧ b.listenClaim = false)

/-- The controller goes on in its round: no mark becomes owed, a timer is reloaded only where it runs, the tag moves only
where no POST waits on it, the phase and EPOCH stay in step, and MUTE keeps rounds to count. -/
structure RoundMove (s : State) (r : Round) : Prop where
  count : r.roundCount = s.round.roundCount := by rfl
  owed : r.owed = none ∨ r.owed = s.round.owed := by exact .inr rfl
  epochTimer : r.epochTimer = s.round.epochTimer ∨ (s.round.epochTimer.isSome ∧ r.epochTimer = some s.period) := by
    exact .inl rfl
  listenTimer : r.listenTimer = s.round.listenTimer ∨ (s.node.state = .listen ∧ r.listenTimer = s.listenLoad) := by
    exact .inl rfl
  tag : r.tag = s.round.tag ∨ s.line.slot.post = none ∨ s.node.state ≠ .active := by exact .inl rfl
  phase : s.PhaseOk → (s.withRound r).PhaseOk := by exact id
  mute : s.MuteOk → (s.withRound r).MuteOk := by exact id

/-- One change a command makes. A move that only some commands make names them. -/
inductive State.Move (c : Instr) : State → State → Prop
  | line {s : State} {l : Line} (move : LineMove s.line l) : Move c s (s.withLine l)
  | node {s : State} {n : Node} (move : NodeMove s.node n) : Move c s (s.withNode n)
  | round {s : State} {r : Round} (move : RoundMove s r) : Move c s (s.withRound r)
  | offer {s : State} (kind : EventKind) (station : BitVec 6) (detail : BitVec 8) : Move c s (s.offer kind station detail)
  | acknowledge {s : State} (count : Nat) (row : ∃ octets, c = .ackEvents octets) :
      Move c s (s.withLog (s.log.acknowledge count))
  | sampler {s : State} {x : Sampler} (flight : x.stage ≠ .idle → s.sampler.stage ≠ .idle ∨ s.samples = true) :
      Move c s (s.withSampler x)
  | aux {s : State} {x : Aux}
      (flight : x.stage ≠ .idle → s.aux.stage ≠ .idle ∨ (s.samples = true ∧ s.node.straps.auxEnabled = true)) :
      Move c s (s.withAux x)
  | clearIntake {s : State} : Move c s s.epochIntake
  | intake {s : State} {p : Post} (source : samplingStation p.source = true ∨ s.line.slot.post = some p) :
      Move c s (s.withTable { s.table with intake := intakePost p s.table.intake })
  | forget {s : State} (station : BitVec 6) : Move c s (s.withTable (s.table.withEntry station Entry.vacant))
  | close {s : State} (closes : s.node.state.closes = true) (noPost : s.line.slot.post = none) : Move c s s.snapshotClose
  | await {s : State} {effect : Awaited} (rounds : ∀ n, effect = .quiet n → n ≠ 0#8) :
      Move c s (s.withHandler { s.handler with awaited := effect })
  | store {s : State} {store : Store} (setup : s.node.state = .setup)
      (row : ∃ octets, c = .configurePlan octets ∨ c = .configureCal octets ∨ c = .configureLimits octets)
      (written : ∃ args, configurePlan args s.handler.store = some store ∨ configureCal args s.handler.store = some store ∨
        configureLimits args s.handler.store = some store) : Move c s (s.writeStore store)
  | place {s : State} (f : TxFrame) (sampling : s.sampling = true) (notMute : s.node.state ≠ .mute)
      (notBarred : s.node.state ≠ .barred)
      (own : ∀ p, f = .post p → s.node.state = .active ∧ p.source = s.own ∧ p.group = s.node.straps.group ∧
        p.tag = s.round.tag - 1) : Move c s (s.placeFrame f)
  | claim {s : State} (state : s.node.state = .active ∨ s.node.state = .listen) : Move c s s.claimMark
  | quietOwed {s : State} : Move c s s.quietOwed
  | listen {s : State} (setup : s.node.state = .setup) : Move c s s.enterListen
  | activate {s : State} (count : BitVec 8) (state : s.node.state = .listen ∨ s.node.state = .mute) :
      Move c s ((s.withRound { s.round with muteCount := count }).enterActive)
  | mute {s : State} (count : BitVec 8) (active : s.node.state = .active)
      (rounds : count ≠ 0#8 ∨ s.handler.awaited = .quiet count) : Move c s (s.muteEntry count)
  | bar {s : State} (tag : BitVec 8) (post : ∃ p, s.line.slot.post = some p) : Move c s (s.countRun.enterBarred tag)
  | instant {s : State} (row : ∃ first, c = .markRecognized first) (notSetup : s.node.state ≠ .setup)
      (empty : s.line.slot = .empty) : Move c s s.epochRound

/-- A chain of moves. -/
abbrev State.Moves (c : Instr) : State → State → Prop := Relation.ReflTransGen (State.Move c)

/-- The node states in which RESTART takes effect (R75, R76). -/
abbrev NodeState.Restarts (st : NodeState) : Prop := st = .listen ∨ st = .active ∨ st = .mute

/-- A command, or a part of one, moves the node, or moves it and ends in RESTART. -/
def State.Settles (c : Instr) (s t : State) : Prop :=
  s.Moves c t ∨ ∃ u, s.Moves c u ∧ u.node.state.Restarts ∧ t = u.restartEffect

/-- At a mark the RESTART of a given-up answer can come before the epoch instant (R164). -/
def State.RestartsAtMark (c : Instr) (s t : State) : Prop :=
  c = .markRecognized .answerReport ∧ s.handler.awaited = .restart ∧ s.line.slot.hasAnswer = true ∧
    ∃ u, s.Moves c u ∧ u.node.state.Restarts ∧ t = u.restartEffect.epochInstant

end Sys2Proof.Machine
end

section
/-! PROOFS. The moves of the shared operations and of each command. -/

namespace Sys2Proof.Machine

open Relation

variable {c : Instr} {s t u : State}

/-! ### Moves of the line -/

/-- A move of the line that leaves the slot, the error run and the mark hold. -/
theorem LineMove.of_kept {a b : Line} (slot : b.slot = a.slot) (run : b.txRun = a.txRun) (mark : b.markHold = a.markHold)
    (receiver : a.Receives → b.Receives) : LineMove a b where
  post _ h := slot ▸ h
  empty h := slot.trans h
  run := .inl run
  mark h := mark ▸ h
  receiver := receiver

/-- A move of the line in which no frame is being received at the end. -/
theorem LineMove.of_ended {a b : Line} (slot : b.slot = a.slot) (run : b.txRun = a.txRun) (mark : b.markHold = a.markHold)
    (cond : b.cond ≠ .frame) (ended : b.receiving = false) : LineMove a b :=
  .of_kept slot run mark fun _ => ⟨fun h => absurd h cond, fun h => by simp [ended] at h⟩

/-- A move of the line that begins a frame. -/
theorem LineMove.of_begun {a b : Line} (slot : b.slot = a.slot) (run : b.txRun = a.txRun) (mark : b.markHold = a.markHold)
    (cond : b.cond = .frame) (begun : b.receiving = true) : LineMove a b :=
  .of_kept slot run mark fun _ => ⟨fun _ => begun, fun _ => .inl cond⟩

/-- A move of the slot alone, which gains no frame. -/
theorem LineMove.of_slot {a : Line} {slot : Slot} (post : ∀ p, slot.post = some p → a.slot.post = some p)
    (empty : a.slot = .empty → slot = .empty) : LineMove a { a with slot := slot } where
  post := post
  empty := empty
  run := .inl rfl
  mark := id
  receiver := id

/-- A move of the error run alone, short of the eighth failure. -/
theorem LineMove.of_run {a : Line} {run : Nat} (below : run < 8) : LineMove a { a with txRun := run } where
  post _ := id
  empty := id
  run := .inr below
  mark := id
  receiver := id

theorem State.move_setSlot_empty : State.Move c s (s.setSlot .empty) := .line (.of_slot nofun fun _ => rfl)

theorem State.move_setSlot_waiting {f : TxFrame} (h : s.line.slot = .sending f) : State.Move c s (s.setSlot (.waiting f)) :=
  .line (.of_slot (fun _ hp => by cases f <;> simp_all [Slot.post]) (by simp [h]))

/-- A WAITING frame that starts becomes SENDING, and its hold edge begins a frame on the line. -/
theorem State.moves_startFrame {f : TxFrame} (h : s.line.slot = .waiting f) : s.Moves c (s.startFrame f) := by
  have sending : State.Move c s (s.setSlot (.sending f)) :=
    .line (.of_slot (fun _ hp => by cases f <;> simp_all [Slot.post]) (by simp [h]))
  exact (ReflTransGen.single sending).tail (.line (l := (s.startFrame f).line) (.of_begun rfl rfl rfl rfl rfl))

/-! ### Chains -/

theorem State.Settles.of_moves (moves : s.Moves c t) : s.Settles c t := .inl moves

theorem State.Settles.refl : s.Settles c s := .inl .refl

theorem State.Settles.of_move (move : State.Move c s t) : s.Settles c t := .inl (.single move)

theorem State.Settles.after (before : s.Moves c u) (settles : u.Settles c t) : s.Settles c t :=
  settles.imp before.trans fun ⟨v, moves, rest⟩ => ⟨v, before.trans moves, rest⟩

/-! ### Awaited effects -/

theorem State.moves_exitSetup (detail : BitVec 8) (setup : s.node.state = .setup) : s.Moves c (s.exitSetup detail) := by
  have closed : s.Moves c (s.offer .setupClosed 0 detail) := .single (.offer _ _ _)
  by_cases invalid : s.own = 63#6
  · simp only [State.exitSetup, invalid, if_true]
    exact (closed.tail (.offer .strapInvalid 0 63)).tail (.listen setup)
  · simp only [State.exitSetup, invalid, if_false]
    exact closed.tail (.listen setup)

/-- RESTART takes effect in LISTEN, ACTIVE and MUTE. -/
theorem State.carryOut_restart (s : State) :
    s.carryOut .restart = if s.node.state.Restarts then s.restartEffect else s := by
  unfold State.carryOut
  cases state : s.node.state <;> simp [NodeState.Restarts]

/-- An awaited QUIET, and one whose rounds are not 0, is a move. -/
theorem State.moves_carryOut_quiet {n : BitVec 8} (rounds : n ≠ 0#8 ∨ s.handler.awaited = .quiet n) :
    s.Moves c (s.carryOut (.quiet n)) := by
  unfold State.carryOut
  cases state : s.node.state with
  | active => exact .single (.mute n state rounds)
  | mute => exact .single (.round { mute := fun ok => ⟨fun _ => rounds.elim id (ok.2 n), ok.2⟩ })
  | setup | listen | barred => exact .refl

theorem State.moves_carryOut_closeSetup : s.Moves c (s.carryOut .closeSetup) := by
  unfold State.carryOut
  cases state : s.node.state with
  | setup => exact State.moves_exitSetup 1 state
  | listen | active | mute | barred => exact .refl

theorem State.settles_carryOut (effect : Awaited) (rounds : ∀ n, effect = .quiet n → n ≠ 0#8) :
    s.Settles c (s.carryOut effect) := by
  cases effect with
  | none => exact .refl
  | quiet n => exact .of_moves (State.moves_carryOut_quiet (.inl (rounds n rfl)))
  | restart =>
    rw [State.carryOut_restart]
    split
    · next state => exact .inr ⟨s, .refl, state, rfl⟩
    · exact .refl
  | closeSetup => exact .of_moves State.moves_carryOut_closeSetup

/-- A QUIET does not read which effect is awaited. -/
theorem State.carryOut_quiet_withHandler (h : Handler) (n : BitVec 8) :
    (s.withHandler h).carryOut (.quiet n) = (s.carryOut (.quiet n)).withHandler h := by
  unfold State.carryOut
  cases state : s.node.state <;> simp only [state, State.node_withHandler] <;> rfl

/-- The end of an answer moves the node, or is the RESTART that was awaited. -/
theorem State.moves_answerEnded_or_restart :
    s.Moves c s.answerEnded ∨
      (s.handler.awaited = .restart ∧ s.node.state.Restarts ∧ s.answerEnded = s.restartEffect) := by
  have cleared : s.Moves c (s.withHandler { s.handler with awaited := .none }) := .single (.await (by simp))
  rw [State.answerEnded_eq]
  cases awaited : s.handler.awaited with
  | none => exact .inl cleared
  | quiet n =>
    have quieted : s.Moves c (s.carryOut (.quiet n)) := State.moves_carryOut_quiet (.inr awaited)
    have handler : (s.carryOut (.quiet n)).handler = s.handler := by
      unfold State.carryOut
      cases s.node.state <;> rfl
    rw [State.carryOut_quiet_withHandler, ← handler]
    exact .inl (quieted.tail (.await (by simp)))
  | restart =>
    rw [State.carryOut_restart]
    split
    · next state => exact .inr ⟨rfl, state, rfl⟩
    · exact .inl cleared
  | closeSetup => exact .inl (cleared.trans State.moves_carryOut_closeSetup)

theorem State.settles_answerEnded : s.Settles c s.answerEnded :=
  State.moves_answerEnded_or_restart.imp id fun ⟨_, state, restarted⟩ => ⟨s, .refl, state, restarted⟩

/-- No effect puts a frame in the slot. -/
theorem State.carryOut_slot_empty (effect : Awaited) (empty : s.line.slot = .empty) :
    (s.carryOut effect).line.slot = .empty := by
  unfold State.carryOut
  cases effect with
  | none => exact empty
  | quiet n =>
    cases s.node.state with
    | active => rfl
    | setup | listen | mute | barred => exact empty
  | restart =>
    cases s.node.state with
    | listen | active | mute => rfl
    | setup | barred => exact empty
  | closeSetup =>
    cases s.node.state
    case setup => rw [(s.exitSetup_eq 1).1]; exact empty
    all_goals exact empty

/-! ### The posting close and the epoch instant -/

theorem Slot.post_eq_none_iff (x : Slot) : x.post = none ↔ x.hasPost = false := by
  cases x with
  | empty => simp [Slot.post, Slot.hasPost]
  | waiting f | sending f => cases f <;> simp [Slot.post, Slot.hasPost]

/-- Stage 1 of a posting close leaves no POST in the slot. -/
theorem State.moves_dropUnsentPost (cause : CloseCause) :
    s.Moves c (s.dropUnsentPost cause) ∧ (s.dropUnsentPost cause).line.slot.post = none := by
  rcases s.dropUnsentPost_cases cause with ⟨none, same⟩ | ⟨_, dropped⟩
  · rw [same]
    exact ⟨.refl, (Slot.post_eq_none_iff _).mpr none⟩
  · rw [dropped]
    have emptied : s.Moves c (s.setSlot .empty) := .single State.move_setSlot_empty
    exact ⟨(emptied.tail (.offer _ _ _)).tail (.round {}), rfl⟩

theorem State.move_judgeDuplicate : State.Move c s s.judgeDuplicate := by
  rw [State.judgeDuplicate_eq]
  refine .node ?_
  unfold Node.judged
  split
  · exact ⟨rfl, rfl, rfl, id⟩
  · exact ⟨rfl, rfl, rfl, id⟩

theorem State.judgeDuplicate_frame (s : State) :
    s.judgeDuplicate.line = s.line ∧ s.judgeDuplicate.round = s.round ∧ s.judgeDuplicate.node.state = s.node.state := by
  rw [State.judgeDuplicate_eq]
  unfold Node.judged
  split <;> exact ⟨rfl, rfl, rfl⟩

theorem State.moves_postingClose (cause : CloseCause) : s.Moves c (s.postingClose cause) := by
  unfold State.postingClose
  split
  · next posting =>
    obtain ⟨dropped, noPost⟩ := State.moves_dropUnsentPost (c := c) (s := s) cause
    have kept : (s.dropUnsentPost cause).node = s.node ∧ (s.dropUnsentPost cause).round.phase = s.round.phase := by
      rcases s.dropUnsentPost_cases cause with ⟨_, h⟩ | ⟨_, h⟩ <;> rw [h] <;> exact ⟨rfl, rfl⟩
    obtain ⟨line, round, state⟩ := (s.dropUnsentPost cause).judgeDuplicate_frame
    have toRequest : s.Moves c ((s.dropUnsentPost cause).judgeDuplicate.withRound
        { (s.dropUnsentPost cause).judgeDuplicate.round with phase := .request }) := by
      refine (dropped.tail State.move_judgeDuplicate).tail (.round { phase := fun ok => ?_ })
      obtain ⟨output, setup⟩ := ok
      rw [round, kept.2, posting] at output
      refine ⟨by simpa [round] using output, fun h => ?_⟩
      have := setup h
      rw [round, kept.2, posting] at this
      cases this
    simp only
    split
    · next closes =>
      refine toRequest.tail (.close ?_ ?_)
      · simpa [state, kept.1] using closes
      · simpa [line] using noPost
    · exact toRequest
  · exact .refl

theorem State.moves_epochNodeState : s.Moves c s.epochNodeState := by
  unfold State.epochNodeState
  cases state : s.node.state with
  | listen =>
    dsimp only
    have enters : s.Moves c s.enterActive := .single (.activate s.round.muteCount (.inl state))
    split
    · exact enters
    · exact enters
    · split
      · have tagged : s.Moves c (s.withRound { s.round with tag := 255 }) :=
          .single (.round { tag := .inr (.inr (by simp [state])) })
        exact tagged.tail (.activate s.round.muteCount (.inl state))
      · exact .refl
  | mute =>
    dsimp only
    split
    · exact .single (.activate 0 (.inr state))
    · next many =>
      refine .single (.round { mute := fun ok => ⟨fun _ => ?_, ok.2⟩ })
      simp only [State.round_withRound]
      bv_omega
  | setup | active | barred => exact .refl

theorem State.moves_epochMeasure : s.Moves c s.epochMeasure := by
  unfold State.epochMeasure
  split
  · next samples =>
    have recorded : s.Moves c s.recordOverrun := by
      unfold State.recordOverrun
      split
      · next flying =>
        refine (ReflTransGen.single (.offer _ _ _)).tail (.sampler fun h => .inl h)
      · exact .refl
    have node : s.recordOverrun.node = s.node := by
      unfold State.recordOverrun
      split <;> rfl
    have started : s.Moves c s.startSampler :=
      recorded.tail (.sampler fun _ => .inr (by simpa [State.samples, State.sampling, node] using samples))
    have node' : s.startSampler.node = s.node := by rw [s.startSampler_eq.1]; rfl
    unfold State.startAux
    split
    · next enabled =>
      refine started.tail (.aux fun _ => .inr ⟨?_, enabled⟩)
      simpa [State.samples, State.sampling, node'] using samples
    · exact started
  · have discarded : s.Moves c (s.withSampler { s.sampler with finished := none }) :=
      .single (.sampler fun h => .inl h)
    exact discarded.tail (.aux fun h => .inl h)

/-- Stage 6 places the node's own post (R47). -/
theorem State.moves_epochPost (reading : Option Reading) (aux : Option AuxResult) :
    s.Moves c (s.epochPost reading aux) := by
  unfold State.epochPost
  split
  · next posts =>
    obtain ⟨active, sampling⟩ := posts
    refine .single (.place _ sampling (by simp [active]) (by simp [active]) fun p h => ?_)
    cases h
    exact ⟨active, rfl, rfl, rfl⟩
  · exact .refl

theorem State.moves_epochInstant (row : ∃ first, c = .markRecognized first) : s.Moves c s.epochInstant := by
  unfold State.epochInstant
  split
  · exact .refl
  · next notSetup =>
    have closed : s.Moves c s.epochClose := (State.moves_postingClose .mark).tail State.move_setSlot_empty
    obtain ⟨frame, _, _, _, state⟩ := s.epochClose.epochNodeState_eq
    have closedState : s.epochClose.node.state = s.node.state := (s.postingClose_frame .mark).2.2.2.2.2.1
    have round : s.Moves c s.epochClose.epochNodeState.epochRound := by
      refine (closed.trans State.moves_epochNodeState).tail (.instant row ?_ ?_)
      · rw [closedState] at state
        rcases state with h | h <;> rw [h]
        · exact notSetup
        · simp
      · rw [frame]; rfl
    exact ((round.tail .clearIntake).trans State.moves_epochMeasure).trans (State.moves_epochPost _ _)

/-! ### Posts and requests -/

theorem State.moves_deliverPost {p : Post} (source : samplingStation p.source = true ∨ s.line.slot.post = some p) :
    s.Moves c (s.deliverPost p) := by
  have taken : s.Moves c (s.withTable { s.table with intake := intakePost p s.table.intake }) := .single (.intake source)
  unfold State.deliverPost
  cases s.round.phase with
  | posting =>
    dsimp only
    split
    · next adopts =>
      obtain ⟨listen, _⟩ := adopts
      have adopted : s.Moves c ((s.withTable { s.table with intake := intakePost p s.table.intake }).withNode
          { s.node with adoption := .posted }) :=
        taken.tail (.node ⟨rfl, rfl, rfl, fun ok => ⟨ok.1, fun h => absurd listen h⟩⟩)
      refine adopted.tail (.round { tag := .inr (.inr ?_) })
      simp [listen]
    · exact taken
  | quietWait | mark | request => exact .refl

/-- A request is answered, or its effect follows at once. -/
theorem State.settles_respond {r : Request} (status : Status) (payload : List Byte) (effect : Awaited)
    (addressed : r.broadcast = true ∨ s.sampling = true) (rounds : ∀ n, effect = .quiet n → n ≠ 0#8) :
    s.Settles c (s.respond r status payload effect) := by
  cases broadcast : r.broadcast with
  | true =>
    rw [State.respond_of_broadcast _ _ _ broadcast]
    split
    · exact State.settles_carryOut effect rounds
    · exact .refl
  | false =>
    have sampling : s.sampling = true := by simpa [broadcast] using addressed
    unfold State.respond
    rw [if_neg (by simp [broadcast])]
    rcases s.offerAnswer_cases ⟨s.own, r.code, status.code, payload⟩ effect with
      ⟨_, notMute, notBarred, placed⟩ | ⟨_, dropped⟩
    · rw [placed]
      have awaits : s.Moves c (s.withHandler { s.handler with awaited := effect }) := .single (.await rounds)
      exact .of_moves (awaits.tail (.place _ sampling notMute notBarred nofun))
    · rw [dropped]
      exact State.settles_carryOut effect rounds

/-- A refusal or a plain answer has no effect to follow. -/
theorem State.settles_respond_none {r : Request} (status : Status) (payload : List Byte)
    (addressed : r.broadcast = true ∨ s.sampling = true) : s.Settles c (s.respond r status payload .none) :=
  State.settles_respond status payload .none addressed (by simp)

theorem LineMove.requestEnd (l : Line) (r : Request) : LineMove l (l.requestEnd r) := .of_ended rfl rfl rfl nofun rfl

theorem LineMove.frameEnd (l : Line) : LineMove l l.frameEnd := .of_ended rfl rfl rfl nofun rfl

/-- A request row settles as its handler does on a request that is addressed to the node. -/
theorem State.settles_onRequest (octets : List Byte) (accepts : Request → Bool) (handle : Request → State → State)
    (handled : ∀ (r : Request) (u : State), r.broadcast = true ∨ u.sampling = true → u.Settles c (handle r u)) :
    s.Settles c (s.onRequest octets accepts handle) := by
  rcases s.onRequest_cases octets accepts handle with same | ⟨r, _, _, _, ⟨_, ended⟩ | ⟨taken, reached⟩⟩
  · rw [same]; exact .refl
  · rw [ended]; exact .of_move (.line (l := s.line.requestEnd r) (.requestEnd _ r))
  · rw [reached]
    have addressed : r.broadcast = true ∨ s.sampling = true := by
      simp only [State.addressed, Bool.and_eq_true, Bool.or_eq_true] at taken
      exact taken.1.imp id And.left
    have ended : s.Moves c (s.withLine (s.line.requestEnd r)) := .single (.line (.requestEnd _ r))
    exact State.Settles.after ended (handled r _ addressed)

end Sys2Proof.Machine
end

section
/-! PROOFS. What each command leads to. -/

namespace Sys2Proof.Machine

open Relation

variable {c : Instr} {s t u : State}

/-! ### The request handlers -/

section
variable {r : Request} (addressed : r.broadcast = true ∨ s.sampling = true)
include addressed

theorem State.settles_handleReadStatus : s.Settles c (handleReadStatus r s) := by
  unfold handleReadStatus
  split
  · split
    · exact State.settles_respond_none _ _ addressed
    · exact .refl
  · exact State.settles_respond_none _ _ addressed

theorem State.settles_handleReadEntry : s.Settles c (handleReadEntry r s) := by
  unfold handleReadEntry
  split
  · split <;> exact State.settles_respond_none _ _ addressed
  · exact State.settles_respond_none _ _ addressed

theorem State.settles_handleReadGroup : s.Settles c (handleReadGroup r s) := by
  unfold handleReadGroup
  split
  · split <;> exact State.settles_respond_none _ _ addressed
  · exact State.settles_respond_none _ _ addressed

theorem State.settles_handleReadEvents : s.Settles c (handleReadEvents r s) := by
  unfold handleReadEvents
  split <;> exact State.settles_respond_none _ _ addressed

theorem State.settles_handleAckEvents (row : ∃ octets, c = .ackEvents octets) : s.Settles c (handleAckEvents r s) := by
  unfold handleAckEvents
  split
  · next count _ =>
    have acknowledged : s.Moves c (s.withLog (s.log.acknowledge count.toNat)) := .single (.acknowledge _ row)
    exact State.Settles.after acknowledged (State.settles_respond_none _ _ addressed)
  · exact State.settles_respond_none _ _ addressed

theorem State.settles_handleForget : s.Settles c (handleForget r s) := by
  unfold handleForget
  split
  · next station _ =>
    split
    · exact State.settles_respond_none _ _ addressed
    · split
      · have forgotten : s.Moves c (s.withTable (s.table.withEntry (station.setWidth 6) Entry.vacant)) := .single (.forget _)
        exact State.Settles.after forgotten (State.settles_respond_none _ _ addressed)
      · exact State.settles_respond_none _ _ addressed
  · exact State.settles_respond_none _ _ addressed

theorem State.settles_handleQuiet : s.Settles c (handleQuiet r s) := by
  unfold handleQuiet
  split
  · next rounds arg =>
    split
    · refine State.settles_respond _ _ _ addressed fun n h => ?_
      cases h
      obtain ⟨_, positive, _⟩ := oneArg_eq_some.mp arg
      rintro rfl
      simp at positive
    · exact State.settles_respond_none _ _ addressed
  · exact State.settles_respond_none _ _ addressed

theorem State.settles_handleRestart : s.Settles c (handleRestart r s) := by
  unfold handleRestart
  split
  · split
    · exact State.settles_respond_none _ _ addressed
    · exact State.settles_respond _ _ _ addressed (by simp)
  · exact State.settles_respond_none _ _ addressed

theorem State.settles_handleCloseSetup : s.Settles c (handleCloseSetup r s) := by
  unfold handleCloseSetup
  split
  · split
    · split
      · have cleared : s.Moves c (s.withHandler { s.handler with awaited := .none }) := .single (.await (by simp))
        exact State.Settles.after cleared (State.settles_respond _ _ _ addressed (by simp))
      · exact State.settles_respond _ _ _ addressed (by simp)
    · exact State.settles_respond_none _ _ addressed
  · exact State.settles_respond_none _ _ addressed

theorem State.settles_configure {written : Option Store}
    (row : ∃ octets, c = .configurePlan octets ∨ c = .configureCal octets ∨ c = .configureLimits octets)
    (reads : ∀ store, written = some store → ∃ args, configurePlan args s.handler.store = some store ∨
      configureCal args s.handler.store = some store ∨ configureLimits args s.handler.store = some store) :
    s.Settles c (s.configure r written) := by
  unfold State.configure
  split
  · next store =>
    split
    · next setup =>
      have stored : s.Moves c (s.writeStore store) := .single (.store setup row (reads store rfl))
      exact State.Settles.after stored (State.settles_respond_none _ _ addressed)
    · exact State.settles_respond_none _ _ addressed
  · exact State.settles_respond_none _ _ addressed

end

/-! ### The line and its frames -/

theorem LineMove.frameBegin (l : Line) : LineMove l l.frameBegin := .of_begun rfl rfl rfl rfl rfl

theorem LineMove.judgeOctets (l : Line) (octets : List Byte) : LineMove l (l.judgeOctets octets) := by
  unfold Line.judgeOctets
  split
  case h_8 | h_9 => exact .of_kept rfl rfl rfl id
  all_goals exact .of_ended rfl rfl rfl nofun rfl

theorem LineMove.judgeShape (l : Line) (cell : CellLevels) : LineMove l (l.judgeShape cell) := by
  unfold Line.judgeShape
  split
  · exact .of_ended rfl rfl rfl nofun rfl
  · exact .of_ended rfl rfl rfl nofun rfl
  · exact .of_kept rfl rfl rfl id

/-- Recognition gives up an ANSWER in the slot, and no frame is being received after it. -/
theorem LineMove.recognize (l : Line) : LineMove l l.recognize where
  post p h := by
    rw [Line.recognize_slot] at h
    split at h
    · cases h
    · exact h
  empty h := by
    rw [Line.recognize_slot, h]
    rfl
  run := .inl rfl
  mark := id
  receiver _ := ⟨nofun, nofun⟩

theorem State.moves_startWaiting : s.Moves c s.startWaiting := by
  unfold State.startWaiting
  split
  · next waiting => exact State.moves_startFrame waiting
  · exact .refl
  · exact .refl

theorem State.moves_startAligned : s.Moves c s.startAligned := by
  unfold State.startAligned
  split
  · next waiting => exact State.moves_startFrame waiting
  · exact .single (.line (l := s.line.frameBegin) (.frameBegin _))
  · exact .refl

theorem State.settles_giveUpAnswer : s.Settles c s.giveUpAnswer := by
  unfold State.giveUpAnswer
  split
  · exact State.Settles.after (.single State.move_setSlot_empty) State.settles_answerEnded
  · exact .refl

theorem State.moves_quietLine : s.Moves c s.quietLine := by
  unfold State.quietLine
  split
  · have cleared : s.Moves c (s.withLine { s.line with fault := false }) := .single (.line (.of_kept rfl rfl rfl id))
    exact cleared.tail (.offer _ _ _)
  · exact .refl

theorem State.moves_quietParts (order : QuietOrder) : s.Moves c (s.quietParts order) := by
  have line : ∀ u : State, u.Moves c u.quietLine := fun _ => State.moves_quietLine
  have owed : ∀ u : State, u.Moves c u.quietOwed := fun _ => .single .quietOwed
  have close : ∀ u : State, u.Moves c u.quietClose := fun _ => State.moves_postingClose .quiet
  cases order with
  | lineOwedClose => exact ((line _).trans (owed _)).trans (close _)
  | lineCloseOwed => exact ((line _).trans (close _)).trans (owed _)
  | owedLineClose => exact ((owed _).trans (line _)).trans (close _)
  | owedCloseLine => exact ((owed _).trans (close _)).trans (line _)
  | closeLineOwed => exact ((close _).trans (line _)).trans (owed _)
  | closeOwedLine => exact ((close _).trans (owed _)).trans (line _)

/-- The release after a mark moves MARK to POSTING as it releases EPOCH (R49, R50). -/
theorem State.moves_markEnd {l : Line} (line : LineMove s.line l) :
    s.Moves c ((s.withLine l).withRound
      { s.round with epochOut := false, phase := if s.round.phase = .mark then .posting else s.round.phase }) := by
  have released : s.Moves c (s.withLine l) := .single (.line line)
  refine released.tail (.round { phase := fun ok => ?_ })
  obtain ⟨output, setup⟩ := ok
  refine ⟨?_, fun h => ?_⟩
  · simp only [State.round_withRound, Bool.false_eq_true, false_iff]
    split <;> simp_all
  · have waits := setup h
    simp_all

/-! ### Attempts -/

theorem State.moves_clearRun : s.Moves c s.clearRun := by
  unfold State.clearRun
  split
  · exact .single (.line (.of_run (by decide)))
  · exact .refl

/-- Entry to MUTE with no ANSWER in the slot. -/
theorem State.enterMute_of_no_answer (count : BitVec 8) (h : s.line.slot.hasAnswer = false) :
    s.enterMute count = s.muteEntry count := by
  simp [State.enterMute, h]

/-- A failed attempt counts, and the eighth leads to MUTE. -/
theorem State.failAttempt_cases (detail : BitVec 8) (noAnswer : s.line.slot.hasAnswer = false) :
    (s.node.state ≠ .active ∧ s.failAttempt detail = s) ∨
    (s.node.state = .active ∧ s.line.txRun < 7 ∧
      s.failAttempt detail = s.withLine { s.line with txRun := s.line.txRun + 1 }) ∨
    (s.node.state = .active ∧ 7 ≤ s.line.txRun ∧
      s.failAttempt detail = (s.offer .txErrorRun s.own detail).muteEntry 16) := by
  by_cases active : s.node.state = .active
  · have counted : s.countRun = s.withLine { s.line with txRun := min 8 (s.line.txRun + 1) } := by
      simp [State.countRun, active, Config.errorRunLimit]
    by_cases below : s.line.txRun < 7
    · have short : min 8 (s.line.txRun + 1) = s.line.txRun + 1 := by omega
      refine .inr (.inl ⟨active, below, ?_⟩)
      simp only [State.failAttempt, counted, short, State.judgeRun, State.line_withLine, Config.errorRunLimit]
      rw [if_neg (by omega)]
    · have full : min 8 (s.line.txRun + 1) = 8 := by omega
      refine .inr (.inr ⟨active, by omega, ?_⟩)
      simp only [State.failAttempt, counted, full, State.judgeRun, State.line_withLine, State.node_withLine, active,
        Config.errorRunLimit, le_refl, and_self, if_true]
      rw [State.enterMute_of_no_answer _ (by exact noAnswer)]
      rfl
  · exact .inl ⟨active, by simp [State.failAttempt, State.countRun, State.judgeRun, active]⟩

theorem State.moves_failAttempt (detail : BitVec 8) (noAnswer : s.line.slot.hasAnswer = false) :
    s.Moves c (s.failAttempt detail) := by
  rcases s.failAttempt_cases detail noAnswer with ⟨_, same⟩ | ⟨_, below, counted⟩ | ⟨active, _, muted⟩
  · rw [same]
  · rw [counted]
    exact .single (.line (.of_run (by omega)))
  · rw [muted]
    exact (ReflTransGen.single (.offer _ _ _)).tail (.mute 16 active (.inl (by decide)))

/-- A failed attempt in LISTEN counts nothing. -/
theorem State.failAttempt_restartEffect (detail : BitVec 8) : s.restartEffect.failAttempt detail = s.restartEffect := by
  have listens : s.restartEffect.node.state ≠ .active := by simp [s.restartEffect_frame.2.1]
  simp [State.failAttempt, State.countRun, State.judgeRun, listens]

theorem State.settles_failAnswer (first : TakenFirst) (detail : BitVec 8) : s.Settles c (s.failAnswer first detail) := by
  have emptied : s.Moves c (s.setSlot .empty) := .single State.move_setSlot_empty
  cases first with
  | answerReport =>
    show s.Settles c ((s.setSlot .empty).answerEnded.failAttempt detail)
    have slot : (s.setSlot .empty).answerEnded.line.slot = .empty := State.carryOut_slot_empty _ rfl
    rcases State.moves_answerEnded_or_restart (c := c) (s := s.setSlot .empty) with moves | ⟨_, state, restarted⟩
    · exact .of_moves ((emptied.trans moves).trans (State.moves_failAttempt detail (by rw [slot]; rfl)))
    · rw [restarted, State.failAttempt_restartEffect]
      exact .inr ⟨_, emptied, state, rfl⟩
  | otherReport => exact State.Settles.after (emptied.trans (State.moves_failAttempt detail rfl)) State.settles_answerEnded

/-! ### Expiries -/

theorem State.move_reload (h : s.round.epochTimer.isSome = true) :
    State.Move c s (s.withRound { s.round with epochTimer := some s.period }) :=
  .round { epochTimer := .inr ⟨h, rfl⟩ }

theorem State.moves_muteExpiry (mute : s.node.state = .mute) : s.Moves c s.muteExpiry := by
  unfold State.muteExpiry
  split
  · have enters : s.Moves c ((s.withRound { s.round with muteCount := 0 }).enterActive) := .single (.activate 0 (.inr mute))
    exact enters.tail (.claim (.inl rfl))
  · next many =>
    refine .single (.round { mute := fun ok => ⟨fun _ => ?_, ok.2⟩ })
    simp only [State.round_withRound]
    bv_omega

end Sys2Proof.Machine
end

section
/-! PROOFS. Every command but the two of RESET settles, or restarts the node before the instant of a mark. -/

namespace Sys2Proof.Machine

open Relation

variable {c : Instr} {s t u : State}

/-- What holds of the unchanged state and of the command's meaning holds of the answer. -/
theorem State.of_next_unlessReset {P : State → Prop} (unchanged : P s) (meaning : P u)
    (answer : Host.Outcome.next (φ := Fault) (ρ := Refusal) (s.unlessReset u) = .next t) : P t := by
  cases answer
  unfold State.unlessReset
  split
  · exact unchanged
  · exact meaning

/-- A command settles as its meaning does. -/
theorem State.settles_of_next (h : s.Settles c u)
    (answer : Host.Outcome.next (φ := Fault) (ρ := Refusal) (s.unlessReset u) = .next t) : s.Settles c t :=
  State.of_next_unlessReset (P := s.Settles c) .refl h answer

theorem State.settles_line {l : Line} (h : LineMove s.line l) : s.Settles c (s.withLine l) := .of_move (.line h)

theorem State.settles_ite {p : Prop} [Decidable p] {a b : State} (yes : p → s.Settles c a) (no : ¬ p → s.Settles c b) :
    s.Settles c (if p then a else b) := by
  split
  · next h => exact yes h
  · next h => exact no h

/-! ### Frames and holds -/

theorem State.settles_frameStart (h : exec .frameStart s = .next t) : s.Settles .frameStart t := by
  refine State.settles_of_next ?_ h
  cases s.line.cond with
  | opened => exact State.settles_line (.frameBegin _)
  | gap => exact State.Settles.after (.single (.line (l := s.line.frameBegin) (.frameBegin _))) State.settles_giveUpAnswer
  | resync | frame | longHold | marked => exact .refl

theorem State.settles_firstOctetComplete {octet : Byte} (h : exec (.firstOctetComplete octet) s = .next t) :
    s.Settles (.firstOctetComplete octet) t := by
  refine State.settles_of_next (State.settles_ite (fun _ => ?_) fun _ => .refl) h
  cases firstOctetKind octet with
  | answer | request => exact .of_moves (State.moves_postingClose _)
  | post | invalid => exact .refl

theorem State.settles_malformedFrame {report : MalformedReport} (h : exec (.malformedFrame report) s = .next t) :
    s.Settles (.malformedFrame report) t := by
  refine State.settles_of_next (State.settles_ite (fun _ => ?_) fun _ => .refl) h
  cases report with
  | shape cell => exact State.settles_line (.judgeShape _ _)
  | octets octets => exact State.settles_ite (fun _ => State.settles_line (.judgeOctets _ _)) fun _ => .refl

theorem judgeCheck_eq_valid {body : List Byte} {hi lo : Byte} {frame frame' : Frame}
    (valid : judgeCheck body hi lo frame = .valid frame') : frame = frame' := by
  unfold judgeCheck at valid
  split at valid
  · cases valid; rfl
  · cases valid

/-- The source of a POST judged valid is that of its first octet. -/
theorem source_of_judgePost {o : Byte} {rest : List Byte} {p : Post} (valid : judgePost o rest = .valid (.post p)) :
    p.source = firstOctetSource o := by
  unfold judgePost at valid
  dsimp only at valid
  split at valid
  · split_ifs at valid <;> split at valid <;> first | (cases judgeCheck_eq_valid valid; rfl) | cases valid
  · cases valid

theorem judgeAnswer_ne_post (o : Byte) (rest : List Byte) (p : Post) : judgeAnswer o rest ≠ .valid (.post p) := by
  intro valid
  unfold judgeAnswer at valid
  split at valid
  · split_ifs at valid
    split at valid
    · cases judgeCheck_eq_valid valid
    · cases valid
  · cases valid

theorem judgeRequest_ne_post (o : Byte) (rest : List Byte) (p : Post) : judgeRequest o rest ≠ .valid (.post p) := by
  intro valid
  unfold judgeRequest at valid
  split at valid
  · split_ifs at valid
    split at valid
    · split_ifs at valid
      split at valid
      · cases judgeCheck_eq_valid valid
      · cases valid
    · cases valid
  · cases valid

/-- A POST judged valid comes from a sampling station (R29). -/
theorem samplingStation_of_judge {octets : List Byte} {p : Post} (valid : judge octets = .valid (.post p)) :
    samplingStation p.source = true := by
  cases octets with
  | nil => cases valid
  | cons o rest =>
    rw [judge] at valid
    cases kind : firstOctetKind o <;> rw [kind] at valid <;> dsimp only at valid
    case post =>
      split_ifs at valid with outside
      rw [source_of_judgePost valid]
      simpa [samplingStation, not_or] using outside
    case answer => exact absurd valid (judgeAnswer_ne_post o rest p)
    case request => exact absurd valid (judgeRequest_ne_post o rest p)
    case invalid => cases valid

theorem State.settles_postReceived {octets : List Byte} (h : exec (.postReceived octets) s = .next t) :
    s.Settles (.postReceived octets) t := by
  refine State.settles_of_next (State.settles_ite (fun _ => ?_) fun _ => .refl) h
  have ended : s.Moves (.postReceived octets) (s.withLine s.line.frameEnd) := .single (.line (.frameEnd _))
  split
  · next p valid => exact .of_moves (ended.trans (State.moves_deliverPost (.inl (samplingStation_of_judge valid))))
  all_goals exact .refl

theorem State.settles_answerReceived {octets : List Byte} (h : exec (.answerReceived octets) s = .next t) :
    s.Settles (.answerReceived octets) t := by
  refine State.settles_of_next (State.settles_ite (fun _ => ?_) fun _ => .refl) h
  split
  · exact State.settles_line (.frameEnd _)
  all_goals exact .refl

theorem State.settles_startOpportunity {aligned : Bool} (h : exec (.startOpportunity aligned) s = .next t) :
    s.Settles (.startOpportunity aligned) t := by
  refine State.settles_of_next (State.settles_ite (fun waits => ?_) fun _ => .refl) h
  refine State.settles_ite (fun _ => .of_moves State.moves_startAligned) fun _ => .of_moves ?_
  have opened : s.Moves (.startOpportunity aligned) (s.withLine s.line.reachFrameGap) := by
    refine .single (.line (.of_kept rfl rfl rfl fun ok => ⟨nofun, fun receiving => ?_⟩))
    have received := ok.2 receiving
    rcases waits with h | h <;> simp [h] at received
  exact opened.trans State.moves_startWaiting

theorem State.settles_opportunityMissed (h : exec .opportunityMissed s = .next t) : s.Settles .opportunityMissed t := by
  refine State.settles_of_next ?_ h
  split
  · exact State.settles_giveUpAnswer
  all_goals exact .refl

theorem State.settles_answerWindowTimeout (h : exec .answerWindowTimeout s = .next t) :
    s.Settles .answerWindowTimeout t := by
  refine State.settles_of_next (State.settles_ite (fun _ => State.settles_line ?_) fun _ => .refl) h
  exact .of_kept rfl rfl rfl id

theorem State.settles_longHold (h : exec .longHold s = .next t) : s.Settles .longHold t := by
  refine State.settles_of_next (State.settles_ite (fun _ => State.settles_line ?_) fun _ => .refl) h
  exact .of_kept rfl rfl rfl fun _ => ⟨nofun, fun _ => .inr rfl⟩

theorem State.settles_longHoldReleased (h : exec .longHoldReleased s = .next t) : s.Settles .longHoldReleased t := by
  refine State.settles_of_next (State.settles_ite (fun _ => ?_) fun _ => .refl) h
  cases receiving : s.line.receiving with
  | true => exact State.settles_line (.of_ended rfl rfl rfl nofun rfl)
  | false => exact State.settles_line (.of_ended rfl rfl rfl nofun receiving)

theorem State.settles_resyncHoldReleased (h : exec .resyncHoldReleased s = .next t) :
    s.Settles .resyncHoldReleased t := by
  refine State.settles_of_next (State.settles_ite (fun _ => State.settles_line ?_) fun _ => .refl) h
  exact .of_kept rfl rfl rfl id

/-! ### Marks -/

theorem State.settles_quietForPhaseGap {order : QuietOrder} (h : exec (.quietForPhaseGap order) s = .next t) :
    s.Settles (.quietForPhaseGap order) t := by
  refine State.settles_of_next (State.settles_ite (fun _ => .of_moves ?_) fun _ => .refl) h
  have reached : s.Moves (.quietForPhaseGap order) (s.withLine { s.line with releasedRun := Config.phaseGap }) :=
    .single (.line (.of_kept rfl rfl rfl id))
  exact reached.trans (State.moves_quietParts order)

theorem State.settles_markHoldEnd (h : exec .markHoldEnd s = .next t) : s.Settles .markHoldEnd t := by
  refine State.settles_of_next (State.settles_line ?_) h
  exact { post := fun _ => id, empty := id, run := .inl rfl, mark := nofun, receiver := id }

theorem State.settles_markEnd (h : exec .markEnd s = .next t) : s.Settles .markEnd t := by
  refine State.settles_of_next (State.settles_ite (fun marked => .of_moves (State.moves_markEnd ?_)) fun _ => .refl) h
  refine .of_kept rfl rfl rfl fun ok => ⟨nofun, fun receiving => ?_⟩
  have received := ok.2 receiving
  simp [marked] at received

theorem State.settles_lineStuck (h : exec .lineStuck s = .next t) : s.Settles .lineStuck t := by
  refine State.settles_of_next (State.settles_ite (fun _ => .of_moves ?_) fun _ => .refl) h
  have held : s.Moves .lineStuck (s.withLine { s.line with holdRun := Config.stuckLimit, fault := true }) :=
    .single (.line (.of_kept rfl rfl rfl id))
  dsimp only
  split
  · exact held
  · exact held.tail (.offer _ _ _)

/-- At a recognized mark the given-up answer and the instant are taken in either order; a RESTART that comes first is
followed by the instant of LISTEN. -/
theorem State.settles_markRecognized {first : TakenFirst} (h : exec (.markRecognized first) s = .next t) :
    s.Settles (.markRecognized first) t ∨ s.RestartsAtMark (.markRecognized first) t := by
  have recognized : s.Moves (.markRecognized first) (s.withLine s.line.recognize) := .single (.line (.recognize _))
  have instant : ∀ u : State, u.Moves (.markRecognized first) u.epochInstant :=
    fun _ => State.moves_epochInstant ⟨first, rfl⟩
  refine State.of_next_unlessReset
    (P := fun t => s.Settles (.markRecognized first) t ∨ s.RestartsAtMark (.markRecognized first) t) (.inl .refl) ?_ h
  split
  · split
    · next holdsAnswer =>
      split
      · rcases State.moves_answerEnded_or_restart (c := .markRecognized .answerReport) (s := s.withLine s.line.recognize) with
          moves | ⟨awaited, state, restarted⟩
        · exact .inl (.of_moves ((recognized.trans moves).trans (instant _)))
        · dsimp only
          rw [restarted]
          exact .inr ⟨rfl, awaited, holdsAnswer, _, recognized, state, rfl⟩
      · exact .inl (State.Settles.after (recognized.trans (instant _)) State.settles_answerEnded)
    · exact .inl (.of_moves (recognized.trans (instant _)))
  · exact .inl .refl

/-! ### Attempts -/

theorem State.clearRun_eq (s : State) :
    s.clearRun = s.withLine { s.line with txRun := if s.node.state = .active then 0 else s.line.txRun } := by
  unfold State.clearRun
  split <;> rfl

/-- A delivery reads nothing of the line. -/
theorem State.deliverPost_withLine (l : Line) (p : Post) :
    (s.withLine l).deliverPost p = (s.deliverPost p).withLine l := by
  unfold State.deliverPost
  cases phase : s.round.phase <;> simp only [State.round_withLine, State.node_withLine, phase]
  split <;> rfl

/-- A delivery does not read the duplicate-suspect flag. -/
theorem State.deliverPost_withNode_dupSuspect (flag : Bool) (p : Post) :
    (s.withNode { s.node with dupSuspect := flag }).deliverPost p =
      (s.deliverPost p).withNode { (s.deliverPost p).node with dupSuspect := flag } := by
  unfold State.deliverPost
  cases phase : s.round.phase <;> simp only [State.round_withNode, State.node_withNode, phase]
  case posting => split <;> rfl

/-- The delivery of an own POST commutes with what TX_SUCCESS changes before it. -/
theorem State.deliverPost_after_success (l : Line) (p : Post) :
    ((s.withLine l).clearRun.withNode { (s.withLine l).clearRun.node with dupSuspect := false }).deliverPost p =
      ((s.deliverPost p).withLine { l with txRun := if s.node.state = .active then 0 else l.txRun }).withNode
        { (s.deliverPost p).node with dupSuspect := false } := by
  rw [State.clearRun_eq, State.withLine_withLine, State.deliverPost_withNode_dupSuspect, State.deliverPost_withLine]
  rfl

theorem State.settles_txSuccess (h : exec .txSuccess s = .next t) : s.Settles .txSuccess t := by
  refine State.settles_of_next (State.settles_ite (fun _ => ?_) fun _ => .refl) h
  have ended (run : Nat) (below : run = s.line.txRun ∨ run < 8) :
      LineMove s.line { s.line.frameEnd with slot := .empty, txRun := run } :=
    { post := nofun, empty := fun _ => rfl, run := below, mark := id, receiver := fun _ => ⟨nofun, nofun⟩ }
  split
  · next p sending =>
    dsimp only
    rw [State.deliverPost_after_success]
    have delivered : s.Moves .txSuccess (s.deliverPost p) :=
      State.moves_deliverPost (.inr (by simp [sending, Slot.post]))
    have line : (s.deliverPost p).line = s.line := by rw [(s.deliverPost_frame p).1]; rfl
    have emptied : s.Moves .txSuccess ((s.deliverPost p).withLine
        { s.line.frameEnd with slot := .empty, txRun := if s.node.state = .active then 0 else s.line.txRun }) := by
      refine delivered.tail (.line ?_)
      rw [line]
      exact ended _ (by split <;> simp)
    exact .of_moves (emptied.tail (.node ⟨rfl, rfl, rfl, id⟩))
  · have emptied : s.Moves .txSuccess (s.withLine { s.line.frameEnd with slot := .empty }) :=
      .single (.line (ended s.line.txRun (.inl rfl)))
    exact State.Settles.after (emptied.trans State.moves_clearRun) State.settles_answerEnded
  all_goals exact .refl

theorem State.settles_arbitrationLoss (h : exec .arbitrationLoss s = .next t) : s.Settles .arbitrationLoss t := by
  refine State.settles_of_next ?_ h
  split
  · next p sending => exact .of_move (State.move_setSlot_waiting sending)
  · exact State.Settles.after (.single State.move_setSlot_empty) State.settles_answerEnded
  all_goals exact .refl

theorem State.settles_collision {first : TakenFirst} (h : exec (.collision first) s = .next t) :
    s.Settles (.collision first) t := by
  refine State.settles_of_next ?_ h
  split
  · next p sending =>
    refine State.settles_ite (fun _ => .of_move (.bar _ ⟨p, by simp [sending, Slot.post]⟩)) fun _ => .of_moves ?_
    have waits : s.Moves (.collision first) (s.setSlot (.waiting (.post p))) := .single (State.move_setSlot_waiting sending)
    have noted : s.Moves (.collision first)
        ((s.setSlot (.waiting (.post p))).withNode { s.node with collisionNote := true }) :=
      waits.tail (.node ⟨rfl, rfl, rfl, id⟩)
    exact noted.trans (State.moves_failAttempt 1 rfl)
  · exact State.settles_failAnswer _ _
  all_goals exact .refl

theorem State.settles_driveFailure {first : TakenFirst} (h : exec (.driveFailure first) s = .next t) :
    s.Settles (.driveFailure first) t := by
  refine State.settles_of_next ?_ h
  split
  · next p sending =>
    have waits : s.Moves (.driveFailure first) (s.setSlot (.waiting (.post p))) := .single (State.move_setSlot_waiting sending)
    exact .of_moves (waits.trans (State.moves_failAttempt 2 rfl))
  · exact State.settles_failAnswer _ _
  all_goals exact .refl

/-! ### Expiries -/

theorem State.settles_setupTimerExpiry (h : exec .setupTimerExpiry s = .next t) : s.Settles .setupTimerExpiry t := by
  refine State.settles_of_next ?_ h
  split
  · next setup => exact .of_moves (State.moves_exitSetup 0 setup)
  · exact .refl

theorem State.settles_epochTimerExpiry (h : exec .epochTimerExpiry s = .next t) : s.Settles .epochTimerExpiry t := by
  refine State.settles_of_next ?_ h
  split
  · next n running =>
    have reloaded : s.Moves .epochTimerExpiry (s.withRound { s.round with epochTimer := some s.period }) :=
      .single (State.move_reload (by simp [running]))
    cases state : s.node.state with
    | active => exact .of_moves (reloaded.tail (.claim (.inl state)))
    | mute => exact .of_moves (reloaded.trans (State.moves_muteExpiry state))
    | setup | listen | barred => exact .of_moves reloaded
  · exact .refl

theorem State.settles_listenTimerExpiry (h : exec .listenTimerExpiry s = .next t) : s.Settles .listenTimerExpiry t := by
  refine State.settles_of_next ?_ h
  split
  · next listens =>
    have flagged : s.Moves .listenTimerExpiry (s.withNode { s.node with listenClaim := true }) :=
      .single (.node ⟨rfl, rfl, rfl, fun ok => ⟨ok.1, fun no => absurd listens no⟩⟩)
    have reloaded : s.Moves .listenTimerExpiry ((s.withNode { s.node with listenClaim := true }).withRound
        { s.round with listenTimer := s.listenLoad }) :=
      flagged.tail (.round { listenTimer := .inr ⟨listens, rfl⟩ })
    exact .of_moves (reloaded.tail (.claim (.inr listens)))
  · exact .refl

/-! ### Measurements -/

theorem State.moves_offerSensor (old new : Quality) : s.Moves c (s.offerSensor old new) := by
  unfold State.offerSensor
  split
  · exact .single (.offer _ _ _)
  · split
    · exact .single (.offer _ _ _)
    · exact .refl

theorem State.moves_completeReading (r : Reading) : s.Moves c (s.completeReading r) := by
  have stored : s.Moves c (s.withSampler
      { s.sampler with stage := .idle, work := Work.cleared, finished := some r, lastOwn := r.quality }) :=
    .single (.sampler fun no => absurd rfl no)
  exact stored.trans (State.moves_offerSensor _ _)

/-- While an operation is in flight the sampler may go on to any stage. -/
theorem State.move_sampler_of_flight (x : Sampler) (flight : s.sampler.stage ≠ .idle) : State.Move c s (s.withSampler x) :=
  .sampler fun _ => .inl flight

theorem State.moves_takeEdge (clocks : Nat) (flight : s.sampler.stage ≠ .idle) : s.Moves c (s.takeEdge clocks) := by
  unfold State.takeEdge
  dsimp only
  split_ifs
  · exact State.moves_completeReading _
  · exact .single (State.move_sampler_of_flight _ flight)
  · exact .refl
  · exact State.moves_completeReading _
  · exact State.moves_completeReading _
  · exact .single (State.move_sampler_of_flight _ flight)

theorem State.settles_exciteEnd (h : exec .exciteEnd s = .next t) : s.Settles .exciteEnd t := by
  refine State.settles_of_next (State.settles_ite (fun excite => ?_) fun _ => .refl) h
  exact .of_move (State.move_sampler_of_flight _ (by simp [excite]))

theorem State.settles_settleEnd (h : exec .settleEnd s = .next t) : s.Settles .settleEnd t := by
  refine State.settles_of_next (State.settles_ite (fun settle => ?_) fun _ => .refl) h
  exact .of_move (State.move_sampler_of_flight _ (by simp [settle]))

theorem State.settles_sensorEdge {clocks : Nat} (h : exec (.sensorEdge clocks) s = .next t) :
    s.Settles (.sensorEdge clocks) t := by
  refine State.settles_of_next (State.settles_ite (fun counts => ?_) fun _ => .refl) h
  exact .of_moves (State.moves_takeEdge clocks (by simp [counts]))

theorem State.settles_firstEdgeTimeout (h : exec .firstEdgeTimeout s = .next t) : s.Settles .firstEdgeTimeout t :=
  State.settles_of_next (State.settles_ite (fun _ => .of_moves (State.moves_completeReading _)) fun _ => .refl) h

theorem State.settles_countWindowEnd (h : exec .countWindowEnd s = .next t) : s.Settles .countWindowEnd t :=
  State.settles_of_next (State.settles_ite (fun _ => .of_moves (State.moves_completeReading _)) fun _ => .refl) h

/-- An edge of the AUX input starts no measurement. -/
theorem Aux.stage_takeEdge (a : Aux) (rising : Bool) (clocks : Nat) (h : (a.takeEdge rising clocks).stage ≠ .idle) :
    a.stage ≠ .idle := by
  unfold Aux.takeEdge at h
  split at h
  · exact h
  · cases stage : a.stage <;> simp_all

theorem State.settles_auxEdge {rising : Bool} {clocks : Nat} (h : exec (.auxEdge rising clocks) s = .next t) :
    s.Settles (.auxEdge rising clocks) t := by
  cases h
  refine .of_move (.aux fun flight => .inl ?_)
  split at flight
  · exact flight
  · exact Aux.stage_takeEdge _ _ _ flight

theorem State.settles_auxEdgeTimeout (h : exec .auxEdgeTimeout s = .next t) : s.Settles .auxEdgeTimeout t := by
  refine State.settles_of_next (State.settles_ite (fun _ => .of_move (.aux ?_)) fun _ => .refl) h
  exact fun no => absurd rfl no

/-! ### Requests -/

theorem State.settles_request {octets : List Byte} {accepts : Request → Bool} {handle : Request → State → State}
    (handled : ∀ (r : Request) (u : State), r.broadcast = true ∨ u.sampling = true → u.Settles c (handle r u))
    (answer : Host.Outcome.next (φ := Fault) (ρ := Refusal) (s.unlessReset (s.onRequest octets accepts handle)) = .next t) :
    s.Settles c t :=
  State.settles_of_next (State.settles_onRequest octets accepts handle handled) answer

/-- Every command but those of RESET settles, or is a mark at which RESTART comes before the instant. -/
theorem State.settles_of_exec (h : exec c s = .next t) (notAsserted : c ≠ .resetAsserted)
    (notRelease : ∀ straps held, c ≠ .resetRelease straps held) : s.Settles c t ∨ s.RestartsAtMark c t := by
  cases c with
  | resetAsserted => exact absurd rfl notAsserted
  | resetRelease straps held => exact absurd rfl (notRelease straps held)
  | markRecognized first => exact State.settles_markRecognized h
  | startOpportunity aligned => exact .inl (State.settles_startOpportunity h)
  | opportunityMissed => exact .inl (State.settles_opportunityMissed h)
  | firstOctetComplete octet => exact .inl (State.settles_firstOctetComplete h)
  | malformedFrame report => exact .inl (State.settles_malformedFrame h)
  | postReceived octets => exact .inl (State.settles_postReceived h)
  | answerReceived octets => exact .inl (State.settles_answerReceived h)
  | answerWindowTimeout => exact .inl (State.settles_answerWindowTimeout h)
  | readStatus octets => exact .inl (State.settles_request (fun _ _ addr => State.settles_handleReadStatus addr) h)
  | readEntry octets => exact .inl (State.settles_request (fun _ _ addr => State.settles_handleReadEntry addr) h)
  | readGroup octets => exact .inl (State.settles_request (fun _ _ addr => State.settles_handleReadGroup addr) h)
  | readEvents octets => exact .inl (State.settles_request (fun _ _ addr => State.settles_handleReadEvents addr) h)
  | ackEvents octets => exact .inl (State.settles_request (fun _ _ addr => State.settles_handleAckEvents addr ⟨octets, rfl⟩) h)
  | forget octets => exact .inl (State.settles_request (fun _ _ addr => State.settles_handleForget addr) h)
  | quiet octets => exact .inl (State.settles_request (fun _ _ addr => State.settles_handleQuiet addr) h)
  | restart octets => exact .inl (State.settles_request (fun _ _ addr => State.settles_handleRestart addr) h)
  | configurePlan octets =>
    refine .inl (State.settles_request (fun r u addr => ?_) h)
    exact State.settles_configure addr ⟨octets, .inl rfl⟩ fun store written => ⟨r.args, .inl written⟩
  | configureCal octets =>
    refine .inl (State.settles_request (fun r u addr => ?_) h)
    exact State.settles_configure addr ⟨octets, .inr (.inl rfl)⟩ fun store written => ⟨r.args, .inr (.inl written)⟩
  | configureLimits octets =>
    refine .inl (State.settles_request (fun r u addr => ?_) h)
    exact State.settles_configure addr ⟨octets, .inr (.inr rfl)⟩ fun store written => ⟨r.args, .inr (.inr written)⟩
  | closeSetup octets => exact .inl (State.settles_request (fun _ _ addr => State.settles_handleCloseSetup addr) h)
  | unknownRequestCode octets => exact .inl (State.settles_request (fun _ _ addr => State.settles_respond_none _ _ addr) h)
  | txSuccess => exact .inl (State.settles_txSuccess h)
  | arbitrationLoss => exact .inl (State.settles_arbitrationLoss h)
  | collision first => exact .inl (State.settles_collision h)
  | driveFailure first => exact .inl (State.settles_driveFailure h)
  | setupTimerExpiry => exact .inl (State.settles_setupTimerExpiry h)
  | epochTimerExpiry => exact .inl (State.settles_epochTimerExpiry h)
  | listenTimerExpiry => exact .inl (State.settles_listenTimerExpiry h)
  | longHold => exact .inl (State.settles_longHold h)
  | quietForPhaseGap order => exact .inl (State.settles_quietForPhaseGap h)
  | markHoldEnd => exact .inl (State.settles_markHoldEnd h)
  | markEnd => exact .inl (State.settles_markEnd h)
  | lineStuck => exact .inl (State.settles_lineStuck h)
  | exciteEnd => exact .inl (State.settles_exciteEnd h)
  | settleEnd => exact .inl (State.settles_settleEnd h)
  | sensorEdge clocks => exact .inl (State.settles_sensorEdge h)
  | firstEdgeTimeout => exact .inl (State.settles_firstEdgeTimeout h)
  | countWindowEnd => exact .inl (State.settles_countWindowEnd h)
  | auxEdge rising clocks => exact .inl (State.settles_auxEdge h)
  | auxEdgeTimeout => exact .inl (State.settles_auxEdgeTimeout h)
  | frameStart => exact .inl (State.settles_frameStart h)
  | longHoldReleased => exact .inl (State.settles_longHoldReleased h)
  | resyncHoldReleased => exact .inl (State.settles_resyncHoldReleased h)
  | requestOtherTarget octets => exact .inl (State.settles_request (fun _ _ _ => .refl) h)
  | requestIgnored octets => exact .inl (State.settles_request (fun _ _ _ => .refl) h)

end Sys2Proof.Machine
end

section
/-! PROOFS. Invariants: a property that RESET gives, RESTART gives and every move keeps is kept by every step. The log, the
intake list, the frame in the slot and the error run. -/

namespace Sys2Proof.Machine

open Relation

variable {c : Instr} {s t u : State}

/-! ### From moves to steps -/

/-- A property of the node that every step keeps: it does not read the queue, RESET and RESTART give it, and every move keeps
it. -/
structure State.Invariant (P : State → Prop) : Prop where
  queue : ∀ (s : State) (rest : List Instr), P s → P (s.withPending rest)
  held : ∀ s : State, P s.heldInReset
  release : ∀ (straps : Straps) (held pin : Bool) (rest : List Instr), P ((State.atRelease straps held pin).withPending rest)
  restart : ∀ s : State, s.node.state.Restarts → P s → P s.restartEffect
  move : ∀ {c : Instr} {s t : State}, State.Move c s t → P s → P t

theorem State.Invariant.moves {P : State → Prop} (inv : State.Invariant P) (moves : s.Moves c t) (holds : P s) : P t := by
  induction moves with
  | refl => exact holds
  | tail _ move ih => exact inv.move move ih

theorem State.Invariant.exec {P : State → Prop} (inv : State.Invariant P) (h : exec c s = .next t) (holds : P s) : P t := by
  by_cases asserted : c = .resetAsserted
  · subst asserted
    cases h
    exact inv.held s
  by_cases release : ∃ straps held, c = .resetRelease straps held
  · obtain ⟨straps, held, rfl⟩ := release
    cases h
    exact inv.release _ _ _ _
  rcases State.settles_of_exec h asserted (fun straps held e => release ⟨straps, held, e⟩) with
    (moves | ⟨u, moves, state, rfl⟩) | ⟨rfl, _, _, u, moves, state, rfl⟩
  · exact inv.moves moves holds
  · exact inv.restart u state (inv.moves moves holds)
  · exact inv.moves (State.moves_epochInstant ⟨.answerReport, rfl⟩) (inv.restart u state (inv.moves moves holds))

theorem State.Invariant.step {P : State → Prop} (inv : State.Invariant P) (h : step s = .next t) (holds : P s) : P t := by
  unfold Machine.step at h
  split at h
  · cases h
    exact holds
  · exact inv.exec h (inv.queue s _ holds)

/-! ### What the shared moves leave -/

theorem State.snapshotClose_node (s : State) : s.snapshotClose.node = s.node := s.snapshotClose_frame.1

theorem State.snapshotClose_line (s : State) : s.snapshotClose.line = s.line := s.snapshotClose_frame.2.1

theorem State.snapshotClose_round (s : State) :
    s.snapshotClose.round = { s.round with tag := (tagVote s.round.tag s.table.intake).getD s.round.tag } :=
  s.snapshotClose_frame.2.2.1

theorem State.snapshotClose_sampler (s : State) : s.snapshotClose.sampler = s.sampler := s.snapshotClose_frame.2.2.2.1

theorem State.snapshotClose_aux (s : State) : s.snapshotClose.aux = s.aux := s.snapshotClose_frame.2.2.2.2.1

theorem State.snapshotClose_handler (s : State) : s.snapshotClose.handler = s.handler := s.snapshotClose_frame.2.2.2.2.2.1

theorem State.snapshotClose_intake (s : State) : s.snapshotClose.table.intake = s.table.intake :=
  s.snapshotClose_frame.2.2.2.2.2.2.2.1

theorem State.snapshotClose_log (s : State) :
    s.snapshotClose.log = s.log.offerMany s.round.roundCount s.snapshotRecords :=
  congrArg State.log (s.snapshotClose_withLog s.log)

/-- An owed mark is originated with its record; without one nothing happens. -/
theorem State.quietOwed_cases (s : State) :
    (s.round.owed = none ∧ s.quietOwed = s) ∨
    ∃ cause, s.round.owed = some cause ∧ s.quietOwed =
      ((s.withLine s.line.originate).withRound { s.round with
        owed := none
        marksOriginated := satInc s.round.marksOriginated
        marksDeferred := satInc s.round.marksDeferred }).withLog
      (s.log.offer { kind := .markDeferred, roundCount := s.round.roundCount, station := 0, detail := cause.code }) := by
  unfold State.quietOwed
  cases owed : s.round.owed with
  | none => exact .inl ⟨rfl, rfl⟩
  | some cause => exact .inr ⟨cause, rfl, rfl⟩

/-- A frame placed in the slot is there, WAITING or SENDING, and has begun a frame on the line if it is SENDING. -/
theorem State.placeFrame_cases (s : State) (f : TxFrame) :
    s.placeFrame f = s.withLine { s.line with slot := .waiting f } ∨
    s.placeFrame f = s.withLine { s.line.frameBegin with slot := .sending f } := by
  unfold State.placeFrame
  split
  · exact .inr rfl
  · exact .inl rfl

/-- A failed attempt counts in ACTIVE, up to 8 (R18). -/
theorem State.countRun_eq (s : State) :
    s.countRun = s.withLine
      { s.line with txRun := if s.node.state = .active then min 8 (s.line.txRun + 1) else s.line.txRun } := by
  unfold State.countRun
  split <;> rfl

/-- Entry to BARRED after the attempt is counted, block by block (R17, R73, R78). -/
theorem State.countRun_enterBarred (s : State) (tag : BitVec 8) :
    s.countRun.enterBarred tag = { s with
      node := s.node.standAside .barred
      line := { s.line with
        slot := .empty
        markHold := false
        txRun := if s.node.state = .active then min 8 (s.line.txRun + 1) else s.line.txRun }
      round := { s.round with owed := none }
      sampler := s.sampler.abandoned
      aux := Aux.cleared s.aux.pin
      handler := { s.handler with awaited := .none }
      log := s.log.offer ⟨.duplicateNumber, s.round.roundCount, s.own, tag⟩ } := by
  rw [State.countRun_eq]
  rfl

theorem Table.withEntry_intake (x : Table) (station : BitVec 6) (e : Entry) :
    (x.withEntry station e).intake = x.intake := by
  unfold Table.withEntry
  split <;> rfl

/-! ### The log (R182) -/

/-- The log holds at most 16 records, and counts a dropped one only while it holds 16. -/
def EventLog.Bounded (l : EventLog) : Prop := l.records.length ≤ 16 ∧ (l.dropped ≠ 0#8 → l.records.length = 16)

theorem EventLog.Bounded.offer {l : EventLog} (h : l.Bounded) (r : EventRecord) : (l.offer r).Bounded := by
  obtain ⟨few, full⟩ := h
  unfold EventLog.offer Config.logCapacity
  split
  · next room => exact ⟨by simp; omega, fun dropped => absurd (full dropped) (by omega)⟩
  · exact ⟨few, fun _ => by simp only; omega⟩

theorem EventLog.Bounded.offerMany {l : EventLog} (h : l.Bounded) (count : BitVec 16)
    (rs : List (EventKind × BitVec 6 × BitVec 8)) : (l.offerMany count rs).Bounded := by
  induction rs generalizing l with
  | nil => exact h
  | cons r rs ih => exact ih (h.offer _)

theorem EventLog.Bounded.acknowledge {l : EventLog} (h : l.Bounded) (count : Nat) : (l.acknowledge count).Bounded :=
  ⟨by have few := h.1; simp [EventLog.acknowledge]; omega, fun no => absurd rfl no⟩

theorem State.logBounded_invariant : State.Invariant State.LogBounded where
  queue _ _ h := h
  held _ := ⟨Nat.zero_le _, fun no => absurd rfl no⟩
  release _ _ _ _ := ⟨Nat.zero_le _, fun no => absurd rfl no⟩
  restart _ _ _ := ⟨Nat.le_add_left 1 15, fun no => absurd rfl no⟩
  move {c s t} m h := by
    have h : s.log.Bounded := h
    cases m with
    | line | node | round | sampler | aux | clearIntake | intake | forget | await | store | listen | activate | mute =>
      exact h
    | offer => exact h.offer _
    | acknowledge count => exact h.acknowledge count
    | close => rw [State.LogBounded, State.snapshotClose_log]; exact h.offerMany _ _
    | place f =>
      rcases s.placeFrame_cases f with e | e <;> rw [e] <;> exact h
    | claim => rw [State.claimMark_eq]; exact h
    | quietOwed =>
      rcases s.quietOwed_cases with ⟨_, e⟩ | ⟨_, _, e⟩ <;> rw [e]
      · exact h
      · exact h.offer _
    | bar tag => rw [State.countRun_enterBarred]; exact h.offer _
    | instant => rw [s.epochRound_eq.1]; exact h

/-! ### The intake list (R115) -/

theorem State.intakeOk_invariant : State.Invariant State.IntakeOk where
  queue _ _ h := h
  held _ := ⟨List.nodup_nil, by simp [State.heldInReset, State.atRelease, Table.cleared], nofun⟩
  release _ _ _ _ := ⟨List.nodup_nil, by simp [State.atRelease, Table.cleared], nofun⟩
  restart s _ _ := ⟨List.nodup_nil, by simp [State.restartEffect, State.enterListen, Table.cleared], nofun⟩
  move {c s t} m h := by
    obtain ⟨nodup, sources, slot⟩ := h
    have kept : s.IntakeOk := ⟨nodup, sources, slot⟩
    cases m with
    | node | round | offer | acknowledge | sampler | aux | await | store | listen | activate => exact kept
    | line move => exact ⟨nodup, sources, fun p h => slot p (move.post p h)⟩
    | clearIntake => exact ⟨List.nodup_nil, by simp [State.epochIntake], slot⟩
    | intake source =>
      refine ⟨nodup_intakePost _ _ nodup, fun q mem => ?_, slot⟩
      rcases mem_intakePost mem with rfl | old
      · exact source.elim id (slot q)
      · exact sources q old
    | forget station =>
      refine ⟨?_, ?_, slot⟩ <;> simp only [State.table_withTable, Table.withEntry_intake]
      · exact nodup
      · exact sources
    | close =>
      rw [State.IntakeOk, State.snapshotClose_intake, State.snapshotClose_line]
      exact kept
    | place f sampling _ _ own =>
      have placed (p : Post) (h : f = .post p) : samplingStation p.source = true := by
        obtain ⟨_, source, _⟩ := own p h
        rw [source]
        exact sampling
      have posted : ∀ p, (s.placeFrame f).line.slot.post = some p → samplingStation p.source = true := by
        intro p h
        rcases s.placeFrame_cases f with e | e <;> rw [e] at h <;> cases f <;> cases h <;> exact placed _ rfl
      rcases s.placeFrame_cases f with e | e <;> rw [e] at posted ⊢ <;> exact ⟨nodup, sources, posted⟩
    | claim =>
      have same := s.claimMark_frame.1
      rw [State.IntakeOk, same, State.claimMark_eq]
      exact kept
    | quietOwed => rcases s.quietOwed_cases with ⟨_, e⟩ | ⟨_, _, e⟩ <;> rw [e] <;> exact kept
    | mute => exact ⟨nodup, sources, nofun⟩
    | bar tag => rw [State.countRun_enterBarred]; exact ⟨nodup, sources, nofun⟩
    | instant => rw [s.epochRound_eq.1]; exact kept

/-! ### The POST in the slot (R47) -/

theorem State.postOk_invariant : State.Invariant State.PostOk where
  queue _ _ h := h
  held _ := nofun
  release _ _ _ _ := nofun
  restart _ _ _ := nofun
  move {c s t} m h := by
    cases m with
    | offer | acknowledge | sampler | aux | clearIntake | intake | forget | await | store => exact h
    | line move => exact fun p held => h p (move.post p held)
    | node move =>
      intro p held
      obtain ⟨active, source, group, tag⟩ := h p held
      refine ⟨move.state.trans active, ?_, ?_, tag⟩
      · simpa [State.own, move.straps] using source
      · simpa [move.straps] using group
    | @round r move =>
      intro p held
      obtain ⟨active, source, group, tag⟩ := h p held
      rcases move.tag with same | noPost | notActive
      · exact ⟨active, source, group, by rw [State.round_withRound, same]; exact tag⟩
      · exact absurd (noPost.symm.trans held) nofun
      · exact absurd active notActive
    | close _ noPost =>
      intro p held
      rw [State.snapshotClose_line, noPost] at held
      cases held
    | place f _ _ _ own =>
      intro p held
      rcases s.placeFrame_cases f with e | e <;> rw [e] at held ⊢ <;> cases f <;> cases held <;> exact own _ rfl
    | claim =>
      obtain ⟨slot, _, _, _, tag, _⟩ := s.claimMark_frame
      rw [State.PostOk, slot, tag, State.claimMark_eq]
      exact h
    | quietOwed => rcases s.quietOwed_cases with ⟨_, e⟩ | ⟨_, _, e⟩ <;> rw [e] <;> exact h
    | listen setup => exact fun p held => absurd ((h p held).1.symm.trans setup) nofun
    | activate _ state =>
      intro p held
      have active := (h p held).1
      rcases state with state | state <;> exact absurd (active.symm.trans state) nofun
    | mute => exact nofun
    | bar tag => rw [State.countRun_enterBarred]; exact nofun
    | instant _ _ empty =>
      intro p held
      rw [s.epochRound_eq.1] at held
      exact absurd (congrArg Slot.post empty |>.symm.trans held) nofun

end Sys2Proof.Machine

namespace Sys2Proof

open Machine

/-- Settles O54: the log grows by offers alone, which stop at 16, and the intake list by arrivals, each in the place of an
earlier post of its source. -/
theorem stepKeepsLogAndIntakeBounded : Obligations.StepKeepsLogAndIntakeBounded :=
  ⟨fun _ _ holds h => State.logBounded_invariant.step h holds, fun _ _ holds h => State.intakeOk_invariant.step h holds⟩

/-- Settles O55: a POST enters the slot at the instant of an ACTIVE sampling node alone, and the tag moves only with no POST
in the slot. -/
theorem stepKeepsPostOk : Obligations.StepKeepsPostOk :=
  fun _ _ holds h => State.postOk_invariant.step h holds

end Sys2Proof
end

section
/-! PROOFS. Invariants of the node state machine, the line, the controller and the measurements: error run, silent nodes,
measurements in flight, phase, timers, mute count, receiver and adoption. -/

namespace Sys2Proof.Machine

/-! ### What the straps fix -/

theorem State.sampling_of_straps {s t : State} (h : t.node.straps = s.node.straps) : t.sampling = s.sampling := by
  unfold State.sampling
  rw [h]

theorem State.period_of_straps {s t : State} (h : t.node.straps = s.node.straps) : t.period = s.period := by
  unfold State.period
  rw [h]

theorem State.listenLoad_of_straps {s t : State} (h : t.node.straps = s.node.straps) : t.listenLoad = s.listenLoad := by
  unfold State.listenLoad
  rw [State.sampling_of_straps h, h]

/-! ### The transmit error run (R18, R67) -/

theorem State.runOk_invariant : State.Invariant State.RunOk where
  queue _ _ h := h
  held _ := ⟨Nat.zero_le _, nofun⟩
  release _ _ _ _ := ⟨Nat.zero_le _, nofun⟩
  restart _ _ _ := ⟨Nat.zero_le _, nofun⟩
  move {c s t} m h := by
    obtain ⟨most, barred⟩ := h
    have kept : s.RunOk := ⟨most, barred⟩
    cases m with
    | round | offer | acknowledge | sampler | aux | clearIntake | intake | forget | await | store => exact kept
    | @line l move =>
      rcases move.run with same | below
      · exact ⟨by rw [State.line_withLine, same]; exact most, by rw [State.line_withLine, same]; exact barred⟩
      · exact ⟨by rw [State.line_withLine]; omega, by rw [State.line_withLine]; omega⟩
    | node move => exact ⟨most, fun full => move.state.trans (barred full)⟩
    | close => rw [State.RunOk, State.snapshotClose_line, State.snapshotClose_node]; exact kept
    | place f => rcases s.placeFrame_cases f with e | e <;> rw [e] <;> exact kept
    | claim =>
      rcases s.claimMark_cases with e | ⟨_, e⟩ | ⟨_, _, e⟩ | ⟨_, e⟩ <;> rw [e] <;> exact kept
    | quietOwed => rcases s.quietOwed_cases with ⟨_, e⟩ | ⟨_, _, e⟩ <;> rw [e] <;> exact kept
    | listen setup => exact ⟨most, fun full => absurd ((barred full).symm.trans setup) nofun⟩
    | activate _ state =>
      refine ⟨most, fun full => ?_⟩
      rcases state with state | state <;> exact absurd ((barred full).symm.trans state) nofun
    | mute => exact ⟨Nat.zero_le _, nofun⟩
    | bar tag =>
      rw [State.countRun_enterBarred]
      refine ⟨?_, fun _ => rfl⟩
      dsimp only
      split
      · exact Nat.min_le_left _ _
      · exact most
    | instant =>
      obtain ⟨frame, _, state, _⟩ := s.epochRound_eq
      refine ⟨by rw [frame]; exact most, fun full => state.trans (barred ?_)⟩
      rw [frame] at full
      exact full

/-! ### Silent nodes (R17, R59, R69, R74) -/

theorem State.silentOk_invariant : State.Invariant State.SilentOk where
  queue _ _ h := h
  held _ := fun _ => ⟨rfl, rfl, rfl⟩
  release _ _ _ _ := fun _ => ⟨rfl, rfl, rfl⟩
  restart s _ h silent := by
    have listener : s.sampling = false := by
      rcases silent with state | state | listener
      · cases state
      · cases state
      · exact listener
    exact ⟨(h (.inr (.inr listener))).1, rfl, rfl⟩
  move {c s t} m h := by
    cases m with
    | offer | acknowledge | sampler | aux | clearIntake | intake | forget | await | store => exact h
    | line move =>
      intro silent
      obtain ⟨mark, empty, owed⟩ := h silent
      exact ⟨Bool.eq_false_iff.mpr fun held => Bool.eq_false_iff.mp mark (move.mark held), move.empty empty, owed⟩
    | node move =>
      intro silent
      refine h ?_
      simpa [State.sampling, move.state, move.straps] using silent
    | @round r move =>
      intro silent
      obtain ⟨mark, empty, owed⟩ := h silent
      exact ⟨mark, empty, move.owed.elim id fun same => same.trans owed⟩
    | close =>
      intro silent
      rw [State.snapshotClose_line, State.snapshotClose_round]
      refine h ?_
      simpa [State.sampling, State.snapshotClose_node] using silent
    | place f sampling notMute notBarred =>
      intro silent
      rcases s.placeFrame_cases f with e | e <;> rw [e] at silent <;> rcases silent with state | state | listener
      · exact absurd state notMute
      · exact absurd state notBarred
      · exact absurd (sampling.symm.trans listener) nofun
      · exact absurd state notMute
      · exact absurd state notBarred
      · exact absurd (sampling.symm.trans listener) nofun
    | claim state =>
      intro silent
      have listener : s.sampling = false := by
        rw [State.claimMark_eq] at silent
        rcases silent with other | other | listener
        · rcases state with state | state <;> exact absurd (state.symm.trans other) nofun
        · rcases state with state | state <;> exact absurd (state.symm.trans other) nofun
        · exact listener
      rw [State.claimMark_eq_self (.inl listener)]
      exact h (.inr (.inr listener))
    | quietOwed =>
      rcases s.quietOwed_cases with ⟨_, e⟩ | ⟨_, owed, e⟩ <;> rw [e]
      · exact h
      · exact fun silent => absurd (owed.symm.trans (h silent).2.2) nofun
    | listen =>
      intro silent
      rcases silent with state | state | listener
      · cases state
      · cases state
      · exact h (.inr (.inr listener))
    | activate =>
      intro silent
      rcases silent with state | state | listener
      · cases state
      · cases state
      · exact h (.inr (.inr listener))
    | mute => exact fun _ => ⟨rfl, rfl, rfl⟩
    | bar tag => rw [State.countRun_enterBarred]; exact fun _ => ⟨rfl, rfl, rfl⟩
    | instant =>
      obtain ⟨frame, straps, state, _, _, _, owed, _⟩ := s.epochRound_eq
      intro silent
      have before : s.node.state = .mute ∨ s.node.state = .barred ∨ s.sampling = false := by
        simpa [State.sampling, state, straps] using silent
      refine ⟨?_, ?_, owed⟩ <;> rw [frame]
      · exact (h before).1
      · exact (h before).2.1

/-! ### Measurements in flight (R80, R102, R103) -/

theorem State.samples_iff (s : State) :
    s.samples = true ↔ s.sampling = true ∧ (s.node.state = .active ∨ s.node.state = .mute) := by
  simp [State.samples]

/-- A node whose straps stay and which samples on wherever it did keeps its measurements. -/
theorem State.MeasuringOk.of_node {s : State} {n : Node} (h : s.MeasuringOk) (straps : n.straps = s.node.straps)
    (state : s.node.state = .active ∨ s.node.state = .mute → n.state = .active ∨ n.state = .mute) :
    (s.withNode n).MeasuringOk := by
  have on (samples : s.samples = true) : (s.withNode n).samples = true := by
    rw [State.samples_iff] at samples ⊢
    obtain ⟨sampling, running⟩ := samples
    exact ⟨by simpa [State.sampling, straps] using sampling, state running⟩
  obtain ⟨sampler, aux⟩ := h
  refine ⟨fun flight => on (sampler flight), fun flight => ?_⟩
  obtain ⟨samples, enabled⟩ := aux flight
  exact ⟨on samples, by simpa [straps] using enabled⟩

theorem State.measuringOk_invariant : State.Invariant State.MeasuringOk where
  queue _ _ h := h
  held _ := ⟨fun no => absurd rfl no, fun no => absurd rfl no⟩
  release _ _ _ _ := ⟨fun no => absurd rfl no, fun no => absurd rfl no⟩
  restart _ _ _ := ⟨fun no => absurd rfl no, fun no => absurd rfl no⟩
  move {c s t} m h := by
    obtain ⟨sampler, aux⟩ := h
    have kept : s.MeasuringOk := ⟨sampler, aux⟩
    cases m with
    | line | round | offer | acknowledge | clearIntake | intake | forget | await | store => exact kept
    | node move => exact kept.of_node move.straps fun running => by rwa [move.state]
    | sampler flight => exact ⟨fun on => (flight on).elim sampler id, aux⟩
    | aux flight => exact ⟨sampler, fun on => (flight on).elim aux id⟩
    | close =>
      rw [State.MeasuringOk, State.snapshotClose_sampler, State.snapshotClose_aux, State.samples, State.sampling,
        State.snapshotClose_node]
      exact kept
    | place f => rcases s.placeFrame_cases f with e | e <;> rw [e] <;> exact kept
    | claim => rw [State.claimMark_eq]; exact kept
    | quietOwed => rcases s.quietOwed_cases with ⟨_, e⟩ | ⟨_, _, e⟩ <;> rw [e] <;> exact kept
    | listen setup =>
      exact kept.of_node (n := s.enterListen.node) rfl fun running => by simp [setup] at running
    | activate => exact kept.of_node (n := s.enterActive.node) rfl fun _ => .inl rfl
    | mute => exact kept.of_node (n := s.node.standAside .mute) rfl fun _ => .inr rfl
    | bar tag =>
      rw [State.countRun_enterBarred]
      exact ⟨fun no => absurd rfl no, fun no => absurd rfl no⟩
    | instant =>
      obtain ⟨frame, straps, state, _⟩ := s.epochRound_eq
      rw [frame]
      exact kept.of_node (n := s.epochRound.node) straps fun running => by rwa [state]

/-! ### Phase and EPOCH (R49, R50) -/

theorem State.phaseOk_invariant : State.Invariant State.PhaseOk where
  queue _ _ h := h
  held _ := ⟨iff_of_false nofun nofun, fun _ => rfl⟩
  release _ _ _ _ := ⟨iff_of_false nofun nofun, fun _ => rfl⟩
  restart _ _ _ := ⟨iff_of_false nofun nofun, fun _ => rfl⟩
  move {c s t} m h := by
    obtain ⟨output, setup⟩ := h
    have kept : s.PhaseOk := ⟨output, setup⟩
    cases m with
    | line | offer | acknowledge | sampler | aux | clearIntake | intake | forget | await | store => exact kept
    | node move => exact ⟨output, fun state => setup (move.state.symm.trans state)⟩
    | round move => exact move.phase kept
    | close => rw [State.PhaseOk, State.snapshotClose_round, State.snapshotClose_node]; exact kept
    | place f => rcases s.placeFrame_cases f with e | e <;> rw [e] <;> exact kept
    | claim => rcases s.claimMark_cases with e | ⟨_, e⟩ | ⟨_, _, e⟩ | ⟨_, e⟩ <;> rw [e] <;> exact kept
    | quietOwed => rcases s.quietOwed_cases with ⟨_, e⟩ | ⟨_, _, e⟩ <;> rw [e] <;> exact kept
    | listen | activate | mute => exact ⟨output, nofun⟩
    | bar tag => rw [State.countRun_enterBarred]; exact ⟨output, nofun⟩
    | instant _ notSetup =>
      obtain ⟨_, _, state, _, mark, asserted, _⟩ := s.epochRound_eq
      exact ⟨iff_of_true asserted mark, fun no => absurd (state.symm.trans no) notSetup⟩

/-! ### Timers (R39, R62, R63) -/

theorem State.epochRound_setupTimer (s : State) : s.epochRound.node.setupTimer = s.node.setupTimer := by
  unfold State.epochRound Node.countMark
  split
  · dsimp only
    split
    · split <;> rfl
    · rfl
    · rfl
  · rfl

/-- The timers together with the POST in the slot, by which a node that enters BARRED comes from ACTIVE. -/
def State.TimersWithPostOk (s : State) : Prop := s.PostOk ∧ s.TimersOk

theorem State.timersWithPostOk_invariant : State.Invariant State.TimersWithPostOk where
  queue _ _ h := h
  held s := ⟨State.postOk_invariant.held s, rfl, rfl, fun _ => rfl⟩
  release straps held pin rest := ⟨State.postOk_invariant.release straps held pin rest, rfl, rfl, fun no => absurd rfl no⟩
  restart s state h := ⟨State.postOk_invariant.restart s state h.1, rfl, rfl, fun _ => rfl⟩
  move {c s t} m h := by
    obtain ⟨post, epoch, listen, setup⟩ := h
    refine ⟨State.postOk_invariant.move m post, ?_⟩
    have kept : s.TimersOk := ⟨epoch, listen, setup⟩
    cases m with
    | line | offer | acknowledge | sampler | aux | clearIntake | intake | forget | await | store => exact kept
    | @node n move =>
      refine ⟨?_, ?_, fun notSetup => ?_⟩
      · rw [State.period_of_straps (s := s) move.straps, State.node_withNode, move.state]; exact epoch
      · rw [State.listenLoad_of_straps (s := s) move.straps, State.node_withNode, move.state]; exact listen
      · exact move.setupTimer.trans (setup (move.state ▸ notSetup))
    | @round r move =>
      refine ⟨?_, ?_, setup⟩
      · rcases move.epochTimer with same | ⟨running, loaded⟩
        · rw [State.round_withRound, same]; exact epoch
        · have notSetup : s.node.state ≠ .setup := fun no => by simp [epoch, no] at running
          exact loaded.trans (if_neg notSetup).symm
      · rcases move.listenTimer with same | ⟨state, loaded⟩
        · rw [State.round_withRound, same]; exact listen
        · exact loaded.trans (if_pos state).symm
    | close =>
      rw [State.TimersOk, State.period, State.listenLoad, State.sampling, State.snapshotClose_round,
        State.snapshotClose_node]
      exact kept
    | place f => rcases s.placeFrame_cases f with e | e <;> rw [e] <;> exact kept
    | claim => rcases s.claimMark_cases with e | ⟨_, e⟩ | ⟨_, _, e⟩ | ⟨_, e⟩ <;> rw [e] <;> exact kept
    | quietOwed => rcases s.quietOwed_cases with ⟨_, e⟩ | ⟨_, _, e⟩ <;> rw [e] <;> exact kept
    | listen => exact ⟨rfl, rfl, fun _ => rfl⟩
    | activate _ state =>
      have notSetup : s.node.state ≠ .setup := by rcases state with state | state <;> simp [state]
      exact ⟨epoch.trans (if_neg notSetup), rfl, fun _ => setup notSetup⟩
    | mute _ active =>
      exact ⟨epoch.trans (if_neg (by simp [active])), listen.trans (if_neg (by simp [active])), fun _ => rfl⟩
    | bar tag holds =>
      obtain ⟨p, held⟩ := holds
      have active : s.node.state = .active := (post p held).1
      rw [State.countRun_enterBarred]
      exact ⟨epoch.trans (if_neg (by simp [active])), listen.trans (if_neg (by simp [active])), fun _ => rfl⟩
    | instant _ notSetup =>
      obtain ⟨_, straps, state, _, _, _, _, timer, _⟩ := s.epochRound_eq
      have loaded : s.epochRound.round.listenTimer = if s.node.state = .listen then s.listenLoad else s.round.listenTimer := rfl
      refine ⟨?_, ?_, fun _ => ?_⟩
      · rw [timer, state, if_neg notSetup, State.period_of_straps straps]
      · rw [loaded, listen, state, State.listenLoad_of_straps straps]
        split <;> rfl
      · rw [State.epochRound_setupTimer]
        exact setup notSetup

/-! ### Rounds of MUTE (R68 to R71) -/

theorem State.muteOk_invariant : State.Invariant State.MuteOk where
  queue _ _ h := h
  held _ := ⟨nofun, nofun⟩
  release _ _ _ _ := ⟨nofun, nofun⟩
  restart _ _ _ := ⟨nofun, nofun⟩
  move {c s t} m h := by
    obtain ⟨mute, quiet⟩ := h
    have kept : s.MuteOk := ⟨mute, quiet⟩
    cases m with
    | line | offer | acknowledge | sampler | aux | clearIntake | intake | forget | store => exact kept
    | node move => exact ⟨fun state => mute (move.state.symm.trans state), quiet⟩
    | round move => exact move.mute kept
    | close =>
      rw [State.MuteOk, State.snapshotClose_round, State.snapshotClose_node, State.snapshotClose_handler]
      exact kept
    | await rounds => exact ⟨mute, rounds⟩
    | place f => rcases s.placeFrame_cases f with e | e <;> rw [e] <;> exact kept
    | claim => rcases s.claimMark_cases with e | ⟨_, e⟩ | ⟨_, _, e⟩ | ⟨_, e⟩ <;> rw [e] <;> exact kept
    | quietOwed => rcases s.quietOwed_cases with ⟨_, e⟩ | ⟨_, _, e⟩ <;> rw [e] <;> exact kept
    | listen | activate => exact ⟨nofun, quiet⟩
    | mute count _ rounds => exact ⟨fun _ => rounds.elim id (quiet count), quiet⟩
    | bar tag => rw [State.countRun_enterBarred]; exact ⟨nofun, nofun⟩
    | instant =>
      obtain ⟨frame, _, state, _, _, _, _, _, _, count⟩ := s.epochRound_eq
      refine ⟨fun muted => ?_, ?_⟩
      · rw [count]
        exact mute (state.symm.trans muted)
      · rw [frame]
        exact quiet

/-! ### The receiver (R6) -/

theorem State.receiverOk_invariant : State.Invariant State.ReceiverOk where
  queue _ _ h := h
  held _ := ⟨nofun, nofun⟩
  release _ _ _ _ := ⟨nofun, nofun⟩
  restart _ _ h := h
  move {c s t} m h := by
    have begun : s.line.frameBegin.Receives := ⟨fun _ => rfl, fun _ => .inl rfl⟩
    cases m with
    | node | round | offer | acknowledge | sampler | aux | clearIntake | intake | forget | await | store | listen
    | activate | mute => exact h
    | line move => exact move.receiver h
    | close => rw [State.ReceiverOk, State.snapshotClose_line]; exact h
    | place f =>
      rcases s.placeFrame_cases f with e | e <;> rw [e]
      · exact h
      · exact begun
    | claim =>
      rcases s.claimMark_cases with e | ⟨_, e⟩ | ⟨_, _, e⟩ | ⟨_, e⟩ <;> rw [e]
      · exact h
      · exact begun
      · exact h
      · exact h
    | quietOwed =>
      rcases s.quietOwed_cases with ⟨_, e⟩ | ⟨_, _, e⟩ <;> rw [e]
      · exact h
      · exact begun
    | bar tag => rw [State.countRun_enterBarred]; exact h
    | instant => rw [s.epochRound_eq.1]; exact h

/-! ### Adoption (R65, R78) -/

/-- A silent mark is the first or the second of LISTEN. -/
theorem Node.silentMarks_countMark {n : Node} (h : n.silentMarks ≤ 2) : n.countMark.silentMarks ≤ 2 := by
  unfold Node.countMark
  split
  · split
    · exact Nat.le_refl 2
    · simp only; omega
  · exact h
  · exact h

theorem State.adoptionOk_invariant : State.Invariant State.AdoptionOk where
  queue _ _ h := h
  held _ := ⟨Nat.zero_le _, fun _ => ⟨rfl, rfl, rfl⟩⟩
  release _ _ _ _ := ⟨Nat.zero_le _, fun _ => ⟨rfl, rfl, rfl⟩⟩
  restart _ _ _ := ⟨Nat.zero_le _, fun _ => ⟨rfl, rfl, rfl⟩⟩
  move {c s t} m h := by
    cases m with
    | line | round | offer | acknowledge | sampler | aux | clearIntake | intake | forget | await | store => exact h
    | node move => exact move.adoption h
    | close => rw [State.AdoptionOk, State.snapshotClose_node]; exact h
    | place f => rcases s.placeFrame_cases f with e | e <;> rw [e] <;> exact h
    | claim => rw [State.claimMark_eq]; exact h
    | quietOwed => rcases s.quietOwed_cases with ⟨_, e⟩ | ⟨_, _, e⟩ <;> rw [e] <;> exact h
    | listen | activate | mute => exact ⟨Nat.zero_le _, fun _ => ⟨rfl, rfl, rfl⟩⟩
    | bar tag => rw [State.countRun_enterBarred]; exact ⟨Nat.zero_le _, fun _ => ⟨rfl, rfl, rfl⟩⟩
    | instant =>
      by_cases listen : s.node.state = .listen
      · have counted : s.epochRound.node = s.node.countMark := by simp [State.epochRound, listen]
        have state := s.epochRound_eq.2.2.1
        exact ⟨by rw [counted]; exact Node.silentMarks_countMark h.1, fun no => absurd (state.trans listen) no⟩
      · have same : s.epochRound.node = s.node := by simp [State.epochRound, listen]
        rw [State.AdoptionOk, same]
        exact h

end Sys2Proof.Machine

namespace Sys2Proof

open Machine

/-- Settles O56: move by move; a silent node holds no mark and no frame, and the coil is driven in EXCITE alone. -/
theorem stepKeepsMutedNodesSilent : Obligations.StepKeepsMutedNodesSilent := by
  refine ⟨fun s t h => ⟨fun run => State.runOk_invariant.step h run, fun silent => State.silentOk_invariant.step h silent,
    fun silent quiet => ?_⟩, fun s t measuring h => ?_⟩
  · obtain ⟨mark, empty, _⟩ := silent quiet
    exact State.drivesLine_of_empty mark empty
  · have after := State.measuringOk_invariant.step h measuring
    refine ⟨after, fun coil => after.1 ?_⟩
    have excites : t.sampler.stage = .excite := by simpa [State.drivesCoil] using coil
    simp [excites]

/-- Settles O60: move by move; the timers take the POST in the slot with them, by which BARRED is entered from ACTIVE. -/
theorem stepKeepsPhaseTimersAndFlags : Obligations.StepKeepsPhaseTimersAndFlags :=
  ⟨fun _ _ h => ⟨fun phase => State.phaseOk_invariant.step h phase,
      fun post timers => (State.timersWithPostOk_invariant.step h ⟨post, timers⟩).2⟩,
    fun _ _ h => ⟨fun mute => State.muteOk_invariant.step h mute, fun receiver => State.receiverOk_invariant.step h receiver,
      fun adoption => State.adoptionOk_invariant.step h adoption⟩⟩

end Sys2Proof
end

section
/-! PROOFS. The configuration store: what the arguments of CONFIGURE-PLAN and CONFIGURE-LIMITS write (R37, R174, R176), the
layouts read back (section 2.7), and the invariant of the store (R145, R177). -/

namespace Sys2Proof.Machine

/-! ### Octets of the layouts -/

/-- Octet 6 of plan section 1 (R37). -/
theorem plan_octet_fields (pluck : Bool) (periods : BitVec 2) :
    let o : Byte := BitVec.ofBool pluck ++ 0#5 ++ periods
    o.extractLsb' 2 5 = 0#5 ∧ o.getLsbD 7 = pluck ∧ o.extractLsb' 0 2 = periods := by
  revert pluck periods; decide

/-- Octet 6 of plan section 2 (R37). -/
theorem lapse_octet_fields (lapse : BitVec 4) :
    let o : Byte := 0#4 ++ lapse
    o.extractLsb' 4 4 = 0#4 ∧ o.extractLsb' 0 4 = lapse := by
  revert lapse; decide

/-- Octet 2 of limit section 1 (R37). -/
theorem limit_octet_fields (watched : Bool) (basis : BitVec 2) (rounds : BitVec 4) :
    let o : Byte := BitVec.ofBool watched ++ 0#1 ++ basis ++ rounds
    o.getLsbD 6 = false ∧ o.getLsbD 7 = watched ∧ o.extractLsb' 4 2 = basis ∧ o.extractLsb' 0 4 = rounds := by
  revert watched basis rounds; decide

theorem basisOf_code (b : Basis) : basisOf b.code = b := by cases b <;> rfl

theorem basisOf_eq (code : BitVec 2) :
    basisOf code = if code = 0#2 then .sum else if code = 1#2 then .mean else if code = 2#2 then .min else .max := by
  revert code; decide

/-- The first octet of a limit section: the section in bits 7 to 4, bit 3 clear, the group below (R37). -/
theorem limit_head_iff (o : Byte) (sec : BitVec 4) :
    (o.extractLsb' 4 4 = sec ∧ o.getLsbD 3 = false) ↔ o = BitVec.ofNat 8 (16 * sec.toNat + (limitGroup o).val) := by
  revert o sec; decide +kernel

theorem limitGroup_head (sec : BitVec 4) (g : Fin 8) : limitGroup (BitVec.ofNat 8 (16 * sec.toNat + g.val)) = g := by
  revert sec g; decide +kernel

theorem octets16_append (a b : Byte) : octets16 (a ++ b) = [a, b] := by
  rw [octets16_eq, BitVec.extractLsb'_append_eq_left, BitVec.extractLsb'_append_eq_right]

theorem octets24_append (a b c : Byte) : octets24 (a ++ b ++ c) = [a, b, c] := by
  have h1 : (a ++ b ++ c).extractLsb' 16 8 = a := by
    rw [BitVec.extractLsb'_append_eq_of_le (by decide), BitVec.extractLsb'_append_eq_left]
  have h2 : (a ++ b ++ c).extractLsb' 8 8 = b := by
    rw [BitVec.extractLsb'_append_eq_of_le (by decide), BitVec.extractLsb'_append_eq_right]
  rw [octets24_eq, h1, h2, BitVec.extractLsb'_append_eq_right]

theorem octets32_append (a b c d : Byte) : octets32 (a ++ b ++ c ++ d) = [a, b, c, d] := by
  have front (start : Nat) (h : 8 ≤ start) :
      (a ++ b ++ c ++ d).extractLsb' start 8 = (a ++ b ++ c).extractLsb' (start - 8) 8 :=
    BitVec.extractLsb'_append_eq_of_le h
  have octets := octets24_append a b c
  rw [octets24_eq] at octets
  have last : (a ++ b ++ c ++ d).extractLsb' 0 8 = d := BitVec.extractLsb'_append_eq_right
  simp only [List.cons.injEq, and_true] at octets
  obtain ⟨h1, h2, h3⟩ := octets
  rw [octets32_eq, front 24 (by decide), front 16 (by decide), front 8 (by decide), last, h1, h2, h3]

theorem octets32_join (a b c d : Byte) : octets32 (join32 a b c d) = [a, b, c, d] := octets32_append a b c d

theorem join_octets16 (w : BitVec 16) : w.extractLsb' 8 8 ++ w.extractLsb' 0 8 = w := join16_extract w

/-! ### The plan argument (R37, R174) -/

/-- A plan argument writes when it is section 1 or 2 in range, with the bits shown as 0 at 0, and nothing else does. -/
theorem configurePlan_eq_some_iff (args : List Byte) (s t : Store) :
    configurePlan args s = some t ↔
      (∃ a b c d e : Byte, args = [1#8, a, b, c, d, e] ∧
        200 ≤ (a ++ b).toNat ∧ (a ++ b).toNat ≤ 7999 ∧ (a ++ b).toNat + 1 ≤ (c ++ d).toNat ∧ (c ++ d).toNat ≤ 8000 ∧
        e.extractLsb' 2 5 = 0#5 ∧
        t = { s with plan := { s.plan with bandLow := a ++ b, bandHigh := c ++ d, pluck := e.getLsbD 7,
                                           periods := e.extractLsb' 0 2 } }) ∨
      (∃ a b c d e : Byte, args = [2#8, a, b, c, d, e] ∧
        10 ≤ a.toNat ∧ a.toNat ≤ 200 ∧ 100 ≤ (c ++ d).toNat ∧ (c ++ d).toNat ≤ 50000 ∧
        e.extractLsb' 4 4 = 0#4 ∧ 1 ≤ (e.extractLsb' 0 4).toNat ∧
        t = { s with plan := { s.plan with sweep := a, settle := b, tolerance := c ++ d,
                                           lapse := e.extractLsb' 0 4 } }) := by
  have positive (x : BitVec 4) : x ≠ 0#4 ↔ 1 ≤ x.toNat := by
    rw [Nat.one_le_iff_ne_zero, ne_eq, ne_eq, ← BitVec.toNat_inj]
    rfl
  constructor
  · intro h
    unfold configurePlan join16 at h
    split at h
    · next sec a b c d e =>
      simp only at h
      split_ifs at h with one fits two fits
      · cases h
        obtain ⟨low, high, ordered, top, zero⟩ := fits
        exact .inl ⟨a, b, c, d, e, by rw [one], low, high, ordered, top, zero, rfl⟩
      · cases h
        obtain ⟨sweep, sweep', low, high, zero, lapse⟩ := fits
        exact .inr ⟨a, b, c, d, e, by rw [two], sweep, sweep', low, high, zero, (positive _).mp lapse, rfl⟩
    · cases h
  · rintro (⟨a, b, c, d, e, rfl, low, high, ordered, top, zero, rfl⟩ |
      ⟨a, b, c, d, e, rfl, sweep, sweep', low, high, zero, lapse, rfl⟩)
    · exact if_pos ⟨low, high, ordered, top, zero⟩
    · exact if_pos ⟨sweep, sweep', low, high, zero, (positive _).mpr lapse⟩

/-! ### The limit argument (R37, R176) -/

/-- What a section's head says: its section code, the clear bit and its group. -/
theorem limit_head_fields (sec : BitVec 4) (g : Fin 8) :
    let o := BitVec.ofNat 8 (16 * sec.toNat + g.val)
    o.extractLsb' 4 4 = sec ∧ o.getLsbD 3 = false ∧ limitGroup o = g := by
  have group := limitGroup_head sec g
  have ⟨code, clear⟩ := (limit_head_iff (BitVec.ofNat 8 (16 * sec.toNat + g.val)) sec).mpr (by rw [group])
  exact ⟨code, clear, group⟩

section
variable (g : Fin 8) (s : Store)

theorem configureLimits_section1 {b : Byte} (zero : b.getLsbD 6 = false) :
    configureLimits [BitVec.ofNat 8 (16 + g.val), b] s = some (s.withLimit g { s.limit g with
      watched := b.getLsbD 7
      basis := basisOf (b.extractLsb' 4 2)
      rounds := b.extractLsb' 0 4 }) := by
  obtain ⟨code, clear, group⟩ := limit_head_fields 1#4 g
  simp only [BitVec.reduceToNat, Nat.mul_one] at code clear group
  simp only [configureLimits, configureLimitRecord, code, clear, group, zero, and_self, if_true, Option.map_some]

theorem configureLimits_high (x : BitVec 32) :
    configureLimits (BitVec.ofNat 8 (32 + g.val) :: octets32 x) s =
      if boundsAgree x (s.limit g).low (s.limit g).hysteresis = true then
        some (s.withLimit g { s.limit g with high := x }) else none := by
  obtain ⟨code, clear, group⟩ := limit_head_fields 2#4 g
  simp only [BitVec.reduceToNat, Nat.reduceMul] at code clear group
  simp only [configureLimits, octets32_eq, configureLimitRecord, join32_extract, code, clear, group]
  split <;> simp_all

theorem configureLimits_low (x : BitVec 32) :
    configureLimits (BitVec.ofNat 8 (48 + g.val) :: octets32 x) s =
      if boundsAgree (s.limit g).high x (s.limit g).hysteresis = true then
        some (s.withLimit g { s.limit g with low := x }) else none := by
  obtain ⟨code, clear, group⟩ := limit_head_fields 3#4 g
  simp only [BitVec.reduceToNat, Nat.reduceMul] at code clear group
  simp only [configureLimits, octets32_eq, configureLimitRecord, join32_extract, code, clear, group]
  split <;> simp_all

theorem configureLimits_hysteresis (x : BitVec 32) :
    configureLimits (BitVec.ofNat 8 (64 + g.val) :: octets32 x) s =
      if boundsAgree (s.limit g).high (s.limit g).low x = true then
        some (s.withLimit g { s.limit g with hysteresis := x }) else none := by
  obtain ⟨code, clear, group⟩ := limit_head_fields 4#4 g
  simp only [BitVec.reduceToNat, Nat.reduceMul] at code clear group
  simp only [configureLimits, octets32_eq, configureLimitRecord, join32_extract, code, clear, group]
  split <;> simp_all

end

/-- What a limit argument that writes has written, by its section. -/
theorem of_configureLimits {args : List Byte} {s t : Store} (h : configureLimits args s = some t) : ∃ g : Fin 8,
    (∃ b : Byte, args = [BitVec.ofNat 8 (16 + g.val), b] ∧ b.getLsbD 6 = false ∧
      t = s.withLimit g { s.limit g with
        watched := b.getLsbD 7
        basis := basisOf (b.extractLsb' 4 2)
        rounds := b.extractLsb' 0 4 }) ∨
    ∃ x : BitVec 32,
      (args = BitVec.ofNat 8 (32 + g.val) :: octets32 x ∧ boundsAgree x (s.limit g).low (s.limit g).hysteresis = true ∧
        t = s.withLimit g { s.limit g with high := x }) ∨
      (args = BitVec.ofNat 8 (48 + g.val) :: octets32 x ∧ boundsAgree (s.limit g).high x (s.limit g).hysteresis = true ∧
        t = s.withLimit g { s.limit g with low := x }) ∨
      (args = BitVec.ofNat 8 (64 + g.val) :: octets32 x ∧ boundsAgree (s.limit g).high (s.limit g).low x = true ∧
        t = s.withLimit g { s.limit g with hysteresis := x }) := by
  unfold configureLimits at h
  split at h
  case h_2 => cases h
  next o rest =>
  obtain ⟨l, written, rfl⟩ := Option.map_eq_some_iff.mp h
  refine ⟨limitGroup o, ?_⟩
  have head (sec : BitVec 4) (code : o.extractLsb' 4 4 = sec) (clear : o.getLsbD 3 = false) (tail : List Byte) :
      o :: tail = BitVec.ofNat 8 (16 * sec.toNat + (limitGroup o).val) :: tail :=
    congrArg (· :: tail) ((limit_head_iff o sec).mp ⟨code, clear⟩)
  unfold configureLimitRecord at written
  split at written
  · next o1 b eq =>
    cases eq
    split_ifs at written with fits
    cases written
    obtain ⟨code, clear, zero⟩ := fits
    exact .inl ⟨b, head 1#4 code clear _, zero, rfl⟩
  · next o1 a b c d eq =>
    cases eq
    obtain set | clear := Bool.eq_false_or_eq_true (o.getLsbD 3)
    · rw [if_pos set] at written
      cases written
    rw [if_neg (ne_true_of_eq_false clear)] at written
    refine .inr ⟨join32 a b c d, ?_⟩
    rw [octets32_join]
    split at written
    · next high =>
      cases written
      exact .inl ⟨head 2#4 high.1 clear _, high.2, rfl⟩
    split at written
    · next low =>
      cases written
      exact .inr (.inl ⟨head 3#4 low.1 clear _, low.2, rfl⟩)
    split at written
    · next hysteresis =>
      cases written
      exact .inr (.inr ⟨head 4#4 hysteresis.1 clear _, hysteresis.2, rfl⟩)
    · cases written
  · cases written

end Sys2Proof.Machine
end

section
/-! PROOFS. The configuration store settled: round trip and iff of the arguments, the CONFIGURE requests in SETUP, and the
store's invariant. -/

namespace Sys2Proof.Machine

open Relation

/-! ### Round trip of the sections -/

section
variable (new s : Store)

theorem configurePlan_section1 (ok : new.PlanOk) : configurePlan (1#8 :: new.plan.section1) s = some { s with plan :=
    { s.plan with bandLow := new.plan.bandLow, bandHigh := new.plan.bandHigh, pluck := new.plan.pluck,
                  periods := new.plan.periods } } := by
  obtain ⟨low, ordered, high, -⟩ := ok
  obtain ⟨zero, pluck, periods⟩ := plan_octet_fields new.plan.pluck new.plan.periods
  refine (configurePlan_eq_some_iff _ _ _).mpr (.inl ⟨_, _, _, _, _, rfl, ?_⟩)
  rw [join_octets16, join_octets16]
  refine ⟨low, by omega, ordered, high, zero, ?_⟩
  rw [pluck, periods]

theorem configurePlan_section2 (ok : new.PlanOk) : configurePlan (2#8 :: new.plan.section2) s = some { s with plan :=
    { s.plan with sweep := new.plan.sweep, settle := new.plan.settle, tolerance := new.plan.tolerance,
                  lapse := new.plan.lapse } } := by
  obtain ⟨-, -, -, sweepLow, sweepHigh, toleranceLow, toleranceHigh, lapse, -⟩ := ok
  obtain ⟨zero, field⟩ := lapse_octet_fields new.plan.lapse
  have positive : 1 ≤ new.plan.lapse.toNat :=
    Nat.one_le_iff_ne_zero.mpr fun none => lapse (BitVec.eq_of_toNat_eq none)
  refine (configurePlan_eq_some_iff _ _ _).mpr (.inr ⟨_, _, _, _, _, rfl, sweepLow, sweepHigh, ?_⟩)
  rw [join_octets16, field]
  exact ⟨toleranceLow, toleranceHigh, zero, positive, rfl⟩

theorem configureCal_image (ok : new.PlanOk) : configureCal new.cal.image s = some { s with cal := new.cal } := by
  obtain ⟨-, -, -, -, -, -, -, -, zero⟩ := ok
  have joined := join24_extract new.cal.zero
  unfold join24 at joined
  rw [Cal.image, octets24_eq, octets16_eq, List.cons_append, List.cons_append, List.cons_append, List.nil_append,
    configureCal_of_zero_le _ _ _ (by rw [joined]; exact zero), joined, join_octets16]

theorem configureLimits_limit (g : Fin 8) (l : LimitRecord) :
    configureLimits [BitVec.ofNat 8 (16 + g.val), l.section1] s = some (s.withLimit g
      { s.limit g with watched := l.watched, basis := l.basis, rounds := l.rounds }) := by
  obtain ⟨zero, watched, basis, rounds⟩ := limit_octet_fields l.watched l.basis.code l.rounds
  rw [← LimitRecord.section1] at zero watched basis rounds
  rw [configureLimits_section1 g s zero, watched, basis, rounds, basisOf_code]

end

theorem boundsAgree_iff (high low hysteresis : BitVec 32) : boundsAgree high low hysteresis = true ↔
    low.toInt < high.toInt ∧ (hysteresis.toNat : Int) ≤ high.toInt - low.toInt := by
  simp only [boundsAgree, Bool.and_eq_true, decide_eq_true_eq]

/-- Reading back a written limit record. -/
theorem Store.limit_withLimit (s : Store) (g h : Fin 8) (r : LimitRecord) :
    (s.withLimit g r).limit h = if h = g then r else s.limit h := by
  simp only [Store.limit, Store.withLimit, Fin.getElem_fin, Vector.getElem_set, Fin.val_inj, eq_comm (a := g)]

theorem configureLimits_eq_some_iff (args : List Byte) (s t : Store) : configureLimits args s = some t ↔ ∃ g : Fin 8,
    (∃ b : Byte, args = [BitVec.ofNat 8 (16 + g.val), b] ∧ b.getLsbD 6 = false ∧
      t = s.withLimit g { s.limit g with
        watched := b.getLsbD 7
        basis := basisOf (b.extractLsb' 4 2)
        rounds := b.extractLsb' 0 4 }) ∨
    ∃ x : BitVec 32,
      (args = BitVec.ofNat 8 (32 + g.val) :: octets32 x ∧ boundsAgree x (s.limit g).low (s.limit g).hysteresis = true ∧
        t = s.withLimit g { s.limit g with high := x }) ∨
      (args = BitVec.ofNat 8 (48 + g.val) :: octets32 x ∧ boundsAgree (s.limit g).high x (s.limit g).hysteresis = true ∧
        t = s.withLimit g { s.limit g with low := x }) ∨
      (args = BitVec.ofNat 8 (64 + g.val) :: octets32 x ∧ boundsAgree (s.limit g).high (s.limit g).low x = true ∧
        t = s.withLimit g { s.limit g with hysteresis := x }) := by
  constructor
  · exact of_configureLimits
  · rintro ⟨g, ⟨b, rfl, zero, rfl⟩ | ⟨x, ⟨rfl, fits, rfl⟩ | ⟨rfl, fits, rfl⟩ | ⟨rfl, fits, rfl⟩⟩⟩
    · exact configureLimits_section1 g s zero
    · rw [configureLimits_high, if_pos fits]
    · rw [configureLimits_low, if_pos fits]
    · rw [configureLimits_hysteresis, if_pos fits]

/-! ### The CONFIGURE requests in SETUP (R173) -/

section
variable {s : State} {octets : List Byte} {r : Request}

theorem exec_configurePlan_of_hears (hears : s.HearsRequest octets r) (code : r.code = 33#8) :
    exec (.configurePlan octets) s =
      .next ((s.withLine (s.line.ended true)).configure r (configurePlan r.args s.handler.store)) :=
  congrArg Host.Outcome.next <|
    hears.handled (by simp [hasCode, code, RequestCode.octet]) handleConfigurePlan

theorem exec_configureLimits_of_hears (hears : s.HearsRequest octets r) (code : r.code = 35#8) :
    exec (.configureLimits octets) s =
      .next ((s.withLine (s.line.ended true)).configure r (configureLimits r.args s.handler.store)) :=
  congrArg Host.Outcome.next <|
    hears.handled (by simp [hasCode, code, RequestCode.octet]) handleConfigureLimits

end

/-! ### The invariant of the store (R145, R177, R98) -/

section
variable {args : List Byte} {s t : Store}

theorem configurePlan_limits (h : configurePlan args s = some t) : t.limits = s.limits := by
  rcases (configurePlan_eq_some_iff _ _ _).mp h with ⟨_, _, _, _, _, -, -, -, -, -, -, rfl⟩ |
    ⟨_, _, _, _, _, -, -, -, -, -, -, -, rfl⟩ <;> rfl

theorem configurePlan_planOk (h : configurePlan args s = some t) (ok : s.PlanOk) : t.PlanOk := by
  obtain ⟨low, ordered, high, sweepLow, sweepHigh, toleranceLow, toleranceHigh, lapse, zero⟩ := ok
  rcases (configurePlan_eq_some_iff _ _ _).mp h with ⟨_, _, _, _, _, -, low', -, ordered', high', -, rfl⟩ |
    ⟨_, _, _, _, _, -, sweepLow', sweepHigh', toleranceLow', toleranceHigh', -, lapse', rfl⟩
  · exact ⟨low', by simpa using ordered', high', sweepLow, sweepHigh, toleranceLow, toleranceHigh, lapse, zero⟩
  · refine ⟨low, ordered, high, sweepLow', sweepHigh', toleranceLow', toleranceHigh', fun none => ?_, zero⟩
    simp only at none
    rw [none] at lapse'
    exact absurd lapse' (by decide)

/-- CONFIGURE-CAL writes the calibration alone, with zero in its range (R175). -/
theorem of_configureCal (h : configureCal args s = some t) :
    ∃ cal : Cal, cal.zero.toNat ≤ 6400000 ∧ t = { s with cal := cal } := by
  have written : ¬ configureCal args s = none := by rw [h]; nofun
  rw [configureCal_eq_none_iff, not_or, not_not, not_exists] at written
  obtain ⟨five, inRange⟩ := written
  obtain ⟨a, b, c, d, e, rfl⟩ := exists_octets_of_length_eq_five five
  have zero : (a ++ b ++ c).toNat ≤ 6400000 := Nat.le_of_not_lt fun above => inRange a ⟨b, c, d, e, rfl, above⟩
  rw [configureCal_of_zero_le d e s zero] at h
  exact ⟨_, zero, (Option.some.inj h).symm⟩

/-- CONFIGURE-LIMITS writes one limit record, which agrees where the stored one agreed (R176). -/
theorem of_configureLimits_bounds (h : configureLimits args s = some t) : ∃ (g : Fin 8) (l : LimitRecord),
    t = s.withLimit g l ∧
      (boundsAgree (s.limit g).high (s.limit g).low (s.limit g).hysteresis = true →
        boundsAgree l.high l.low l.hysteresis = true) := by
  obtain ⟨g, ⟨_, -, -, rfl⟩ | ⟨_, ⟨-, fits, rfl⟩ | ⟨-, fits, rfl⟩ | ⟨-, fits, rfl⟩⟩⟩ := of_configureLimits h
  · exact ⟨g, _, rfl, id⟩
  all_goals exact ⟨g, _, rfl, fun _ => fits⟩

theorem Store.LimitsOk.withLimit (ok : s.LimitsOk) (g : Fin 8) {l : LimitRecord}
    (agrees : boundsAgree l.high l.low l.hysteresis = true) : (s.withLimit g l).LimitsOk := by
  intro h
  rw [Store.limit_withLimit]
  split
  · exact agrees
  · exact ok h

/-- Whatever a CONFIGURE argument writes is in range (R145, R98). -/
theorem configure_keeps_ranges
    (written : configurePlan args s = some t ∨ configureCal args s = some t ∨ configureLimits args s = some t)
    (limits : s.LimitsOk) (plan : s.PlanOk) : t.LimitsOk ∧ t.PlanOk := by
  rcases written with h | h | h
  · refine ⟨?_, configurePlan_planOk h plan⟩
    rw [Store.LimitsOk] at limits ⊢
    simpa only [Store.limit, configurePlan_limits h] using limits
  · obtain ⟨cal, zero, rfl⟩ := of_configureCal h
    obtain ⟨low, ordered, high, sweepLow, sweepHigh, toleranceLow, toleranceHigh, lapse, -⟩ := plan
    exact ⟨limits, low, ordered, high, sweepLow, sweepHigh, toleranceLow, toleranceHigh, lapse, zero⟩
  · obtain ⟨g, l, rfl, agrees⟩ := of_configureLimits_bounds h
    exact ⟨limits.withLimit g (agrees (limits g)), plan⟩

end

theorem defaultStore_limitsOk : defaultStore.LimitsOk := by decide +kernel

theorem defaultStore_planOk : defaultStore.PlanOk := by decide +kernel

theorem Handler.digest_atRelease : Handler.atRelease.digest = Handler.atRelease.store.digest := by
  simp only [Handler.atRelease]

/-- The invariant reads the handler alone. -/
theorem State.StoreOk.of_handler {s t : State} (ok : s.StoreOk) (same : t.handler = s.handler) : t.StoreOk := by
  rw [State.StoreOk, same]
  exact ok

theorem State.StoreOk.of_atRelease {s : State} (fresh : s.handler = Handler.atRelease) : s.StoreOk := by
  rw [State.StoreOk, fresh]
  exact ⟨defaultStore_limitsOk, defaultStore_planOk, Handler.digest_atRelease⟩

theorem State.StoreOk.of_writeStore {s : State} {store : Store} (limits : store.LimitsOk) (plan : store.PlanOk) :
    (s.writeStore store).StoreOk := by
  refine ⟨limits, plan, ?_⟩
  simp only [State.writeStore, State.handler_withHandler]

theorem State.StoreOk.of_awaited {s t : State} (ok : s.StoreOk) {effect : Awaited}
    (same : t.handler = { s.handler with awaited := effect }) : t.StoreOk := by
  rw [State.StoreOk, same]
  exact ok

theorem State.storeOk_invariant : State.Invariant State.StoreOk where
  queue _ _ h := h.of_handler rfl
  held _ := .of_atRelease rfl
  release _ _ _ _ := .of_atRelease rfl
  restart _ _ h := h.of_awaited rfl
  move {c s t} m h := by
    cases m with
    | line | node | round | offer | acknowledge | sampler | aux | clearIntake | intake | forget | listen | activate | mute =>
      exact h.of_handler rfl
    | await => exact h.of_awaited rfl
    | store _ _ written =>
      obtain ⟨args, written⟩ := written
      obtain ⟨limits, plan, -⟩ := h
      obtain ⟨limits', plan'⟩ := configure_keeps_ranges written limits plan
      exact .of_writeStore limits' plan'
    | close => exact h.of_handler s.snapshotClose_handler
    | place f => rcases s.placeFrame_cases f with e | e <;> rw [e] <;> exact h.of_handler rfl
    | claim => rw [State.claimMark_eq]; exact h.of_handler rfl
    | quietOwed => rcases s.quietOwed_cases with ⟨_, e⟩ | ⟨_, _, e⟩ <;> rw [e] <;> exact h.of_handler rfl
    | bar tag => rw [State.countRun_enterBarred]; exact h.of_awaited rfl
    | instant => rw [s.epochRound_eq.1]; exact h.of_handler rfl

end Sys2Proof.Machine

namespace Sys2Proof

open Machine

/-- Settles O40: the sections read back by their octets' fields, and the arguments that write by the section they name. -/
theorem configurationLayoutsRoundTrip : Obligations.ConfigurationLayoutsRoundTrip := by
  refine ⟨fun s new => ⟨fun ok => ⟨configurePlan_section1 new s ok, configurePlan_section2 new s ok,
      configureCal_image new s ok⟩, fun g l => ⟨configureLimits_limit s g l, configureLimits_high g s l.high,
      configureLimits_low g s l.low, configureLimits_hysteresis g s l.hysteresis⟩⟩,
    configurePlan_eq_some_iff, fun args s t => ?_, boundsAgree_iff,
    fun s g h r => ⟨rfl, rfl, Store.limit_withLimit s g h r⟩⟩
  simp only [configureLimits_eq_some_iff, basisOf_eq]

/-- Settles O39: a heard CONFIGURE request is the configuration with what its argument writes. -/
theorem configureWritesStoreInSetup : Obligations.ConfigureWritesStoreInSetup := by
  refine fun s octets r store hears setup => ⟨fun code written => ?_, fun code written => ?_, fun code written => ?_⟩
  · rw [exec_configurePlan_of_hears hears code, written, hears.configure_some setup, code]
    rfl
  · rw [exec_configureCal_of_hears hears code, written, hears.configure_some setup, code]
    rfl
  · rw [exec_configureLimits_of_hears hears code, written, hears.configure_some setup, code]
    rfl

/-- Settles O57: only a CONFIGURE request in SETUP writes the store, in range and with its digest. -/
theorem stepKeepsStoreOk : Obligations.StepKeepsStoreOk :=
  fun _ _ holds h => State.storeOk_invariant.step h holds

end Sys2Proof
end

section
/-! PROOFS. Invariants of what the snapshot close writes: the aggregator's records, limit states and ALARM (section 8), and the
station table's entries (section 7). -/

namespace Sys2Proof.Machine

open Relation

/-! ### What the snapshot close writes -/

section
variable (s : State)

theorem State.voteTag_frame : s.voteTag.table = s.table ∧ s.voteTag.groups = s.groups ∧ s.voteTag.handler = s.handler ∧
    s.voteTag.round.roundCount = s.round.roundCount := by
  rw [s.voteTag_eq.1]
  simp only [State.table_withLog, State.table_withRound, State.groups_withLog, State.groups_withRound,
    State.handler_withLog, State.handler_withRound, State.round_withLog, State.round_withRound, and_self]

theorem State.closeTable_frame : s.closeTable.groups = s.groups ∧ s.closeTable.handler = s.handler ∧
    s.closeTable.round = s.round := by
  rw [s.closeTable_eq]
  simp only [State.groups_withLog, State.groups_withTable, State.handler_withLog, State.handler_withTable,
    State.round_withLog, State.round_withTable, and_self]

theorem State.snapshotClose_entries : s.snapshotClose.table.entries =
    closeEntries s.table.entries s.voteTag.alignedNow s.round.roundCount s.lapseLimit := by
  obtain ⟨table, -, handler, count⟩ := s.voteTag_frame
  have lapse : s.voteTag.lapseLimit = s.lapseLimit := by rw [State.lapseLimit, State.lapseLimit, handler]
  unfold State.snapshotClose
  rw [(State.closeGroups_eq _ _ _).1, State.closeTable_eq]
  simp only [State.table_withGroups, State.table_withLog, State.table_withTable, table, count, lapse]

theorem State.snapshotClose_cell (g : Fin 8) : s.snapshotClose.groups.cells[g] =
    s.groups.cells[g].close (s.handler.store.limit g)
      (groupRecords s.voteTag.alignedNow s.table.entries s.round.roundCount g) := by
  obtain ⟨-, groups, handler, count⟩ := s.voteTag_frame
  obtain ⟨groups', handler', round'⟩ := s.voteTag.closeTable_frame
  unfold State.snapshotClose
  rw [State.getElem_closeGroups, groups', handler', round', groups, handler, count]

theorem State.snapshotClose_alarm :
    s.snapshotClose.groups.alarm = alarmCondition s.handler.store s.snapshotClose.groups.cells := by
  have alarm := (s.voteTag.closeTable.closeGroups_eq s.voteTag.alignedNow s.table.entries).2
  obtain ⟨-, -, handler, -⟩ := s.voteTag_frame
  obtain ⟨-, handler', -⟩ := s.voteTag.closeTable_frame
  rwa [handler', handler] at alarm

end

theorem NodeState.not_setup_or_listen_of_closes {st : NodeState} (closes : st.closes = true) : ¬ (st = .setup ∨ st = .listen) := by
  rintro (rfl | rfl) <;> cases closes

/-! ### ALARM and the limit states (R137, R146, R152) -/

theorem Groups.getElem_cleared (g : Fin 8) :
    Groups.cleared.cells[g] = { record := GroupRecord.cleared, limit := .normal, run := 0 } := by
  simp [Groups.cleared]

/-- No group alarms in the cleared aggregator, whatever the limits. -/
theorem alarmCondition_cleared (store : Store) : alarmCondition store Groups.cleared.cells = false := by
  simp only [alarmCondition, List.any_eq_false]
  intro g _
  rw [Groups.getElem_cleared, GroupCell.alarms]
  have silent (l : LimitRecord) : (l.rounds != 0#4 && decide (l.rounds.toNat ≤ BitVec.toNat (0 : BitVec 8))) = false := by
    rw [Bool.and_eq_false_iff, bne_eq_false_iff_eq, decide_eq_false_iff_not]
    refine or_iff_not_imp_left.mpr fun some none => some (BitVec.eq_of_toNat_eq (Nat.le_zero.mp none))
  simp only [silent, bne_self_eq_false, Bool.or_self, Bool.and_false, Bool.false_eq_true, not_false_eq_true]

section
variable {s t : State}

theorem State.AlarmOk.of_cleared (cleared : s.groups = Groups.cleared) : s.AlarmOk := by
  refine ⟨?_, fun g _ => ?_, fun _ => cleared⟩
  · rw [cleared, alarmCondition_cleared]
    rfl
  · rw [cleared, Groups.getElem_cleared]

/-- The invariant reads the groups, the store and whether the node is in SETUP or LISTEN. -/
theorem State.AlarmOk.of_same (ok : s.AlarmOk) (groups : t.groups = s.groups) (store : t.handler.store = s.handler.store)
    (state : t.node.state = .setup ∨ t.node.state = .listen → s.node.state = .setup ∨ s.node.state = .listen) :
    t.AlarmOk := by
  rw [State.AlarmOk, groups, store]
  obtain ⟨alarm, unwatched, cleared⟩ := ok
  exact ⟨alarm, unwatched, fun h => cleared (state h)⟩

theorem State.AlarmOk.snapshotClose (ok : s.AlarmOk) (closes : s.node.state.closes = true) : s.snapshotClose.AlarmOk := by
  obtain ⟨-, unwatched, -⟩ := ok
  rw [State.AlarmOk, State.snapshotClose_node, State.snapshotClose_handler]
  refine ⟨s.snapshotClose_alarm, fun g watched => ?_,
    fun h => absurd h (NodeState.not_setup_or_listen_of_closes closes)⟩
  rw [State.snapshotClose_cell]
  exact (nextLimit_of_unwatched watched _).trans (unwatched g watched)

end

theorem State.alarmOk_invariant : State.Invariant State.AlarmOk where
  queue _ _ h := h.of_same rfl rfl id
  held _ := .of_cleared rfl
  release _ _ _ _ := .of_cleared rfl
  restart _ _ _ := .of_cleared rfl
  move {c s t} m h := by
    cases m with
    | line | round | offer | acknowledge | sampler | aux | clearIntake | intake | forget | await => exact h.of_same rfl rfl id
    | node move => exact h.of_same rfl rfl (by rw [State.node_withNode, move.state]; exact id)
    | store setup => exact .of_cleared (h.2.2 (.inl setup))
    | close closes => exact h.snapshotClose closes
    | place f => rcases s.placeFrame_cases f with e | e <;> rw [e] <;> exact h.of_same rfl rfl id
    | claim => rw [State.claimMark_eq]; exact h.of_same rfl rfl id
    | quietOwed => rcases s.quietOwed_cases with ⟨_, e⟩ | ⟨_, _, e⟩ <;> rw [e] <;> exact h.of_same rfl rfl id
    | listen setup => exact h.of_same rfl rfl fun _ => .inl setup
    | activate => exact h.of_same rfl rfl (by rintro (state | state) <;> cases state)
    | mute => exact h.of_same rfl rfl (by rintro (state | state) <;> cases state)
    | bar tag => rw [State.countRun_enterBarred]; exact h.of_same rfl rfl (by rintro (state | state) <;> cases state)
    | instant =>
      obtain ⟨frame, _, state, _⟩ := s.epochRound_eq
      have groups : s.epochRound.groups = s.groups ∧ s.epochRound.handler = s.handler := by rw [frame]; exact ⟨rfl, rfl⟩
      exact h.of_same groups.1 (congrArg Handler.store groups.2) (by rw [state]; exact id)

/-! ### The group records (R136) -/

theorem groupRecord_ok (posts : List Post) (expected : List (BitVec 6)) (count : BitVec 16) (g : Fin 8) :
    (groupRecord posts expected count g).Ok := by
  unfold GroupRecord.Ok groupRecord
  cases h : extremesOf (contributors posts g) with
  | none =>
    have empty := (extremesOf_eq_none_iff _).mp h
    simp only [empty]
    exact ⟨rfl, rfl⟩
  | some x =>
    obtain ⟨⟨isMember, -⟩, -⟩ := extremesOf_spec h
    simp only [h]
    exact ⟨List.length_pos_of_mem isMember, mean_between h⟩

theorem groupRecord_cleared_ok (g : Fin 8) : Groups.cleared.cells[g].record.Ok := by
  rw [Groups.getElem_cleared]
  exact ⟨rfl, rfl⟩

section
variable {s t : State}

theorem State.RecordsOk.of_groups (ok : s.RecordsOk) (groups : t.groups = s.groups) : t.RecordsOk := by
  rw [State.RecordsOk, groups]
  exact ok

theorem State.RecordsOk.of_cleared (cleared : s.groups = Groups.cleared) : s.RecordsOk := by
  rw [State.RecordsOk, cleared]
  exact groupRecord_cleared_ok

end

theorem State.recordsOk_invariant : State.Invariant State.RecordsOk where
  queue _ _ h := h.of_groups rfl
  held _ := .of_cleared rfl
  release _ _ _ _ := .of_cleared rfl
  restart _ _ _ := .of_cleared rfl
  move {c s t} m h := by
    cases m with
    | line | node | round | offer | acknowledge | sampler | aux | clearIntake | intake | forget | await | store | listen
    | activate | mute => exact h.of_groups rfl
    | close =>
      intro g
      rw [State.snapshotClose_cell]
      exact groupRecord_ok _ _ _ _
    | place f => rcases s.placeFrame_cases f with e | e <;> rw [e] <;> exact h.of_groups rfl
    | claim => rw [State.claimMark_eq]; exact h.of_groups rfl
    | quietOwed => rcases s.quietOwed_cases with ⟨_, e⟩ | ⟨_, _, e⟩ <;> rw [e] <;> exact h.of_groups rfl
    | bar tag => rw [State.countRun_enterBarred]; exact h.of_groups rfl
    | instant => rw [s.epochRound_eq.1]; exact h.of_groups rfl

/-! ### The station table's entries (R112, R126, R132) -/

theorem Entry.vacant_ok (lapse : Nat) : Entry.vacant.Ok lapse := rfl

section
variable {e : Entry} {lapse : Nat}

theorem Entry.take_ok (p : Post) (count : BitVec 16) : (e.take p count).Ok lapse := by
  obtain seen | present : e.state.heard = .seen ∨ e.state.heard = .present := by
    cases e.state
    · exact .inl rfl
    all_goals exact .inr rfl
  · simp only [Entry.Ok, Entry.take, seen]
  · simp only [Entry.Ok, Entry.take, present]

theorem Entry.miss_ok (ok : e.Ok lapse) (limit : lapse ≠ 0) : (e.miss lapse).Ok lapse := by
  unfold Entry.Ok at ok
  unfold Entry.miss
  cases state : e.state <;> simp only [state] at ok ⊢
  case vacant => rw [ok]; exact Entry.vacant_ok lapse
  case seen => exact Entry.vacant_ok lapse
  case present =>
    by_cases two : 2 ≤ lapse
    · simp only [Entry.Ok, if_pos two]
      exact ⟨le_rfl, two⟩
    · simp only [Entry.Ok, if_neg two]
      omega
  case lapsing =>
    split
    · next below =>
      simp only [Entry.Ok]
      omega
    · simp only [Entry.Ok]
  case lapsed => simp only [Entry.Ok]

theorem Entry.close_ok (ok : e.Ok lapse) (limit : lapse ≠ 0) (post : Option Post) (count : BitVec 16) :
    (e.close post count lapse).Ok lapse := by
  cases post with
  | none => exact Entry.miss_ok ok limit
  | some p => exact Entry.take_ok p count

end

theorem Table.getElem_cleared (i : Fin 62) : Table.cleared.entries[i] = Entry.vacant := by
  simp [Table.cleared]

/-- An entry after one has been replaced. -/
theorem Table.getElem_withEntry (x : Table) (station : BitVec 6) (e : Entry) (i : Fin 62) :
    (x.withEntry station e).entries[i] = e ∨ (x.withEntry station e).entries[i] = x.entries[i] := by
  unfold Table.withEntry
  split
  · simp only [Fin.getElem_fin, Vector.getElem_set]
    split
    · exact .inl rfl
    · exact .inr rfl
  · exact .inr rfl

section
variable {args : List Byte} {s t : Store}

/-- No CONFIGURE argument writes a lapse limit of 0 (R37, R126). -/
theorem configure_keeps_lapse
    (written : configurePlan args s = some t ∨ configureCal args s = some t ∨ configureLimits args s = some t)
    (limit : s.plan.lapse.toNat ≠ 0) : t.plan.lapse.toNat ≠ 0 := by
  rcases written with h | h | h
  · rcases (configurePlan_eq_some_iff _ _ _).mp h with ⟨_, _, _, _, _, -, -, -, -, -, -, rfl⟩ |
      ⟨_, _, _, _, _, -, -, -, -, -, -, lapse, rfl⟩
    · exact limit
    · exact Nat.one_le_iff_ne_zero.mp lapse
  · obtain ⟨cal, -, rfl⟩ := of_configureCal h
    exact limit
  · obtain ⟨g, l, rfl, -⟩ := of_configureLimits_bounds h
    exact limit

end

section
variable {s t : State}

theorem State.EntriesOk.of_vacant (limit : s.lapseLimit ≠ 0) (vacant : ∀ i : Fin 62, s.table.entries[i] = Entry.vacant) :
    s.EntriesOk :=
  ⟨limit, fun i => by rw [vacant i]; exact Entry.vacant_ok _, fun _ => vacant⟩

/-- The invariant reads the entries, the store and whether the node is in SETUP or LISTEN. -/
theorem State.EntriesOk.of_same (ok : s.EntriesOk) (entries : t.table.entries = s.table.entries)
    (store : t.handler.store = s.handler.store)
    (state : t.node.state = .setup ∨ t.node.state = .listen → s.node.state = .setup ∨ s.node.state = .listen) :
    t.EntriesOk := by
  rw [State.EntriesOk, State.lapseLimit, entries, store]
  obtain ⟨limit, each, vacant⟩ := ok
  exact ⟨limit, each, fun h => vacant (state h)⟩

theorem State.EntriesOk.forget (ok : s.EntriesOk) (station : BitVec 6) :
    (s.withTable (s.table.withEntry station Entry.vacant)).EntriesOk := by
  obtain ⟨limit, each, vacant⟩ := ok
  refine ⟨limit, fun i => ?_, fun h i => ?_⟩
  · rcases s.table.getElem_withEntry station Entry.vacant i with new | old
    · rw [State.table_withTable, new]
      exact Entry.vacant_ok _
    · rw [State.table_withTable, old]
      exact each i
  · rcases s.table.getElem_withEntry station Entry.vacant i with new | old
    · exact new
    · exact old.trans (vacant h i)

theorem State.EntriesOk.snapshotClose (ok : s.EntriesOk) (closes : s.node.state.closes = true) :
    s.snapshotClose.EntriesOk := by
  obtain ⟨limit, each, -⟩ := ok
  rw [State.EntriesOk, State.lapseLimit, State.snapshotClose_node, State.snapshotClose_handler,
    State.snapshotClose_entries]
  refine ⟨limit, fun i => ?_, fun h => absurd h (NodeState.not_setup_or_listen_of_closes closes)⟩
  rw [getElem_closeEntries]
  exact Entry.close_ok (each i) limit _ _

end

theorem lapse_default : defaultStore.plan.lapse.toNat ≠ 0 := by decide

theorem State.entriesOk_invariant : State.Invariant State.EntriesOk where
  queue _ _ h := h.of_same rfl rfl id
  held _ := .of_vacant lapse_default Table.getElem_cleared
  release _ _ _ _ := .of_vacant lapse_default Table.getElem_cleared
  restart _ _ h := .of_vacant h.1 Table.getElem_cleared
  move {c s t} m h := by
    cases m with
    | line | round | offer | acknowledge | sampler | aux | clearIntake | intake | await => exact h.of_same rfl rfl id
    | node move => exact h.of_same rfl rfl (by rw [State.node_withNode, move.state]; exact id)
    | forget station => exact h.forget station
    | store setup _ written =>
      obtain ⟨args, written⟩ := written
      obtain ⟨limit, -, vacant⟩ := h
      exact .of_vacant (configure_keeps_lapse written limit) (vacant (.inl setup))
    | close closes => exact h.snapshotClose closes
    | place f => rcases s.placeFrame_cases f with e | e <;> rw [e] <;> exact h.of_same rfl rfl id
    | claim => rw [State.claimMark_eq]; exact h.of_same rfl rfl id
    | quietOwed => rcases s.quietOwed_cases with ⟨_, e⟩ | ⟨_, _, e⟩ <;> rw [e] <;> exact h.of_same rfl rfl id
    | listen setup => exact h.of_same rfl rfl fun _ => .inl setup
    | activate => exact h.of_same rfl rfl (by rintro (state | state) <;> cases state)
    | mute => exact h.of_same rfl rfl (by rintro (state | state) <;> cases state)
    | bar tag => rw [State.countRun_enterBarred]; exact h.of_same rfl rfl (by rintro (state | state) <;> cases state)
    | instant =>
      obtain ⟨frame, _, state, _⟩ := s.epochRound_eq
      have same : s.epochRound.table = s.table ∧ s.epochRound.handler = s.handler := by rw [frame]; exact ⟨rfl, rfl⟩
      exact h.of_same (congrArg Table.entries same.1) (congrArg Handler.store same.2) (by rw [state]; exact id)

end Sys2Proof.Machine

namespace Sys2Proof

open Machine

/-- Settles O58: a close writes ALARM and the records as they say, and the store is written over a cleared aggregator alone. -/
theorem stepKeepsAlarmAndRecordsOk : Obligations.StepKeepsAlarmAndRecordsOk :=
  ⟨fun _ _ holds h => State.alarmOk_invariant.step h holds, fun _ _ holds h => State.recordsOk_invariant.step h holds⟩

/-- Settles O59: an entry moves at a close and at FORGET alone, and the lapse limit moves over vacant entries alone. -/
theorem stepKeepsEntriesOk : Obligations.StepKeepsEntriesOk :=
  fun _ _ holds h => State.entriesOk_invariant.step h holds

end Sys2Proof
end

section
/-! PROOFS. Rules over every command: the log between acknowledgements (R182, R185), and what moves the straps, BARRED, the
store and the round count (R36, R74, R173, R39). -/

namespace Sys2Proof.Machine

open Relation

variable {c : Instr} {s t u : State}

/-! ### RESTART, and the instant after it -/

theorem State.epochClose_of_empty (phase : s.round.phase ≠ .posting) (empty : s.line.slot = .empty) : s.epochClose = s := by
  have closed : s.postingClose .mark = s := by
    unfold State.postingClose
    split
    · next posting => exact absurd posting phase
    · rfl
  rw [State.epochClose_eq, closed, State.setSlot_eq, ← empty]
  rfl

/-- An instant in LISTEN without an adopted tag and without a listen claim stays in LISTEN and writes no record. -/
theorem State.epochInstant_of_listen (listen : s.node.state = .listen) (adoption : s.node.adoption = .none)
    (claim : s.node.listenClaim = false) (phase : s.round.phase ≠ .posting) (empty : s.line.slot = .empty) :
    s.epochInstant.node.state = .listen ∧ s.epochInstant.log = s.log := by
  have closed : s.epochClose = s := State.epochClose_of_empty phase empty
  have stays : s.epochNodeState = s := by
    simp only [State.epochNodeState, listen, adoption, claim, Bool.false_eq_true, if_false]
  have stages : s.epochStages = s.epochRound.epochIntake := by rw [State.epochStages, closed, stays]
  obtain ⟨frame, -, state, -⟩ := s.epochRound_eq
  have listen' : s.epochStages.node.state = .listen := by rw [stages]; exact state.trans listen
  have log : s.epochStages.log = s.log := by rw [stages, State.epochIntake, frame]; rfl
  have notSampling : s.epochStages.samples = false := by simp [State.samples, listen']
  have measured : s.epochStages.epochMeasure.log = s.log ∧ s.epochStages.epochMeasure.node = s.epochStages.node := by
    unfold State.epochMeasure
    rw [notSampling, if_neg Bool.false_ne_true]
    exact ⟨log, rfl⟩
  have notSetup : s.node.state ≠ .setup := by rw [listen]; nofun
  rw [State.epochInstant, if_neg notSetup]
  simp only
  rw [State.epochPost_eq]
  exact ⟨(congrArg Node.state measured.2).trans listen', measured.1⟩

/-- The instant of a mark that follows RESTART counts round 1 and leaves RESTARTED alone in the log. -/
theorem State.restartEffect_epochInstant (s : State) :
    s.restartEffect.epochInstant.node.state = .listen ∧
    s.restartEffect.epochInstant.log = { records := [⟨.restarted, 0, 0, 0⟩], dropped := 0 } ∧
    s.restartEffect.epochInstant.round.roundCount = 1 := by
  obtain ⟨state, log⟩ := State.epochInstant_of_listen (s := s.restartEffect) rfl rfl rfl nofun rfl
  obtain ⟨-, -, -, -, counts, -⟩ := s.restartEffect.epochInstant_frame
  exact ⟨state, log, (counts nofun).1⟩

/-! ### The log -/

theorem State.Move.log_prefix (move : State.Move c s t) (notAck : ∀ octets, c ≠ .ackEvents octets) :
    s.log.records <+: t.log.records := by
  cases move with
  | line | node | round | sampler | aux | clearIntake | intake | forget | await | store | listen | activate | mute =>
    exact List.prefix_refl _
  | offer => exact EventLog.prefix_offer _ _
  | acknowledge _ row => exact absurd row.choose_spec (notAck _)
  | close =>
    obtain ⟨-, -, -, -, -, -, -, -, log⟩ := s.snapshotClose_frame
    exact log
  | place f => rcases s.placeFrame_cases f with e | e <;> rw [e] <;> exact List.prefix_refl _
  | claim => rw [State.claimMark_eq]; exact List.prefix_refl _
  | quietOwed =>
    rcases s.quietOwed_cases with ⟨_, e⟩ | ⟨_, _, e⟩ <;> rw [e]
    exact EventLog.prefix_offer _ _
  | bar tag => rw [State.countRun_enterBarred]; exact EventLog.prefix_offer _ _
  | instant => rw [s.epochRound_eq.1]; exact List.prefix_refl _

theorem State.Moves.log_prefix (moves : s.Moves c t) (notAck : ∀ octets, c ≠ .ackEvents octets) :
    s.log.records <+: t.log.records := by
  induction moves with
  | refl => exact List.prefix_refl _
  | tail _ move ih => exact ih.trans (move.log_prefix notAck)

/-! ### Straps, BARRED, SETUP and the store -/

/-- The straps stay, BARRED is not left, SETUP is not entered, and the store is written by a CONFIGURE request in SETUP alone
(R36, R74, R61, R173). -/
structure State.Follows (c : Instr) (s t : State) : Prop where
  straps : t.node.straps = s.node.straps
  barred : s.node.state = .barred → t.node.state = .barred
  setup : t.node.state = .setup → s.node.state = .setup
  store : t.handler.store ≠ s.handler.store → s.node.state = .setup ∧
    ∃ octets, c = .configurePlan octets ∨ c = .configureCal octets ∨ c = .configureLimits octets

theorem State.Follows.refl : State.Follows c s s := ⟨rfl, id, id, fun moved => absurd rfl moved⟩

theorem State.Follows.trans (first : State.Follows c s u) (second : State.Follows c u t) : State.Follows c s t where
  straps := second.straps.trans first.straps
  barred := second.barred ∘ first.barred
  setup := first.setup ∘ second.setup
  store moved := by
    by_cases same : u.handler.store = s.handler.store
    · obtain ⟨state, row⟩ := second.store (by rwa [same])
      exact ⟨first.setup state, row⟩
    · exact first.store same

/-- What keeps the node and the store follows the rule. -/
theorem State.Follows.of_same (node : t.node = s.node) (store : t.handler.store = s.handler.store) : State.Follows c s t :=
  ⟨congrArg Node.straps node, by rw [node]; exact id, by rw [node]; exact id, fun moved => absurd store moved⟩

/-- What keeps the straps and the store and goes from a state other than BARRED to one other than SETUP follows the rule. -/
theorem State.Follows.of_states (straps : t.node.straps = s.node.straps) (store : t.handler.store = s.handler.store)
    (before : s.node.state ≠ .barred ∨ t.node.state = .barred) (after : t.node.state ≠ .setup) : State.Follows c s t :=
  ⟨straps, fun barred => before.resolve_left fun no => no barred, fun setup => absurd setup after, fun moved => absurd store moved⟩

theorem State.Follows.of_epochInstant (s : State) (state : s.node.state = .listen)
    (state' : s.epochInstant.node.state = .listen) : State.Follows c s s.epochInstant := by
  obtain ⟨handler, -, straps, -⟩ := s.epochInstant_frame
  exact .of_states straps (congrArg Handler.store handler) (.inl (by rw [state]; nofun)) (by rw [state']; nofun)

theorem State.Move.follows (move : State.Move c s t) : State.Follows c s t := by
  cases move with
  | line | round | offer | acknowledge | sampler | aux | clearIntake | intake | forget | await => exact .of_same rfl rfl
  | node move =>
    exact ⟨move.straps, fun barred => move.state.trans barred, fun setup => move.state.symm.trans setup,
      fun moved => absurd rfl moved⟩
  | store setup row => exact ⟨rfl, id, id, fun _ => ⟨setup, row⟩⟩
  | close => exact .of_same s.snapshotClose_node (congrArg Handler.store s.snapshotClose_handler)
  | place f => rcases s.placeFrame_cases f with e | e <;> rw [e] <;> exact .of_same rfl rfl
  | claim => rw [State.claimMark_eq]; exact .of_same rfl rfl
  | quietOwed => rcases s.quietOwed_cases with ⟨_, e⟩ | ⟨_, _, e⟩ <;> rw [e] <;> exact .of_same rfl rfl
  | listen setup => exact .of_states rfl rfl (.inl (by rw [setup]; nofun)) nofun
  | activate _ state => exact .of_states rfl rfl (.inl (by rcases state with e | e <;> rw [e] <;> nofun)) nofun
  | mute _ active => exact .of_states rfl rfl (.inl (by rw [active]; nofun)) nofun
  | bar tag => rw [State.countRun_enterBarred]; exact .of_states rfl rfl (.inr rfl) nofun
  | instant _ notSetup =>
    obtain ⟨frame, straps, state, -⟩ := s.epochRound_eq
    refine ⟨straps, fun barred => state.trans barred, fun setup => state.symm.trans setup, fun moved => absurd ?_ moved⟩
    rw [frame]
    rfl

theorem State.Moves.follows (moves : s.Moves c t) : State.Follows c s t := by
  induction moves with
  | refl => exact .refl
  | tail _ move ih => exact ih.trans move.follows

theorem State.Follows.of_restart (restarts : s.node.state.Restarts) : State.Follows c s s.restartEffect :=
  .of_states rfl rfl (.inl (by rcases restarts with e | e | e <;> rw [e] <;> nofun)) nofun

/-- Every command but the two of RESET follows the rule. -/
theorem State.follows_of_exec (h : exec c s = .next t) (asserted : c ≠ .resetAsserted)
    (release : ∀ straps held, c ≠ .resetRelease straps held) : State.Follows c s t := by
  rcases State.settles_of_exec h asserted release with (moves | ⟨u, moves, state, rfl⟩) | ⟨-, -, -, u, moves, state, rfl⟩
  · exact moves.follows
  · exact moves.follows.trans (.of_restart state)
  · obtain ⟨listen, -, -⟩ := u.restartEffect_epochInstant
    exact (moves.follows.trans (.of_restart state)).trans (.of_epochInstant _ rfl listen)

/-! ### The round count (R39) -/

theorem State.Move.roundCount (move : State.Move c s t) (notMark : ∀ first, c ≠ .markRecognized first) :
    t.round.roundCount = s.round.roundCount := by
  cases move with
  | line | node | offer | acknowledge | sampler | aux | clearIntake | intake | forget | await | store | listen | activate
  | mute => rfl
  | round move => exact move.count
  | close => rw [State.snapshotClose_round]
  | place f => rcases s.placeFrame_cases f with e | e <;> rw [e] <;> rfl
  | claim =>
    obtain ⟨-, -, -, count, -⟩ := s.claimMark_frame
    exact count
  | quietOwed =>
    rcases s.quietOwed_cases with ⟨_, e⟩ | ⟨_, _, e⟩ <;> rw [e]
    rfl
  | bar tag => rw [State.countRun_enterBarred]
  | instant row => exact absurd row.choose_spec (notMark _)

theorem State.Moves.roundCount (moves : s.Moves c t) (notMark : ∀ first, c ≠ .markRecognized first) :
    t.round.roundCount = s.round.roundCount := by
  induction moves with
  | refl => rfl
  | tail _ move ih => exact (move.roundCount notMark).trans ih

/-- The report of an answer keeps the round count, or is RESTART. -/
theorem State.answerEnded_roundCount (s : State) :
    s.answerEnded.round.roundCount = s.round.roundCount ∨ (s.handler.awaited = .restart ∧ s.answerEnded = s.restartEffect) := by
  rcases State.moves_answerEnded_or_restart (c := .markEnd) (s := s) with moves | ⟨awaited, -, restarted⟩
  · exact .inl (moves.roundCount nofun)
  · exact .inr ⟨awaited, restarted⟩

/-- An instant keeps the round count in SETUP and advances it elsewhere. -/
theorem State.epochInstant_roundCount (s : State) :
    s.epochInstant.round.roundCount = s.round.roundCount ∨ s.epochInstant.round.roundCount = s.round.roundCount + 1 := by
  obtain ⟨-, -, -, setup, counts, -⟩ := s.epochInstant_frame
  by_cases state : s.node.state = .setup
  · rw [setup state]
    exact .inl rfl
  · exact .inr (counts state).1

/-- The round count over a recognized mark: kept, advanced, or that of a RESTART, before the instant or after it. -/
theorem roundCount_of_markRecognized {first : TakenFirst} (h : exec (.markRecognized first) s = .next t) :
    (t.round.roundCount = s.round.roundCount ∨ t.round.roundCount = s.round.roundCount + 1) ∨
    (∃ u : State, t = u.restartEffect) ∨
    (first = .answerReport ∧ s.handler.awaited = .restart ∧ s.line.slot.hasAnswer = true ∧
      ∃ u : State, t = u.restartEffect.epochInstant) := by
  have next := Host.Outcome.next.inj h
  unfold State.unlessReset at next
  split at next
  · exact .inl (.inl (by rw [← next]))
  split at next
  · split at next
    · next answer =>
      cases first with
      | answerReport =>
        rcases (s.withLine s.line.recognize).answerEnded_roundCount with same | ⟨awaited, restarted⟩
        · rw [← next]
          exact .inl (by simpa only [same, State.round_withLine] using (s.withLine s.line.recognize).answerEnded.epochInstant_roundCount)
        · simp only [restarted] at next
          exact .inr (.inr ⟨rfl, awaited, answer, _, next.symm⟩)
      | otherReport =>
        rcases (s.withLine s.line.recognize).epochInstant.answerEnded_roundCount with same | ⟨-, restarted⟩
        · rw [← next]
          exact .inl (by simpa only [same, State.round_withLine] using (s.withLine s.line.recognize).epochInstant_roundCount)
        · simp only [restarted] at next
          exact .inr (.inl ⟨_, next.symm⟩)
    · rw [← next]
      exact .inl (s.withLine s.line.recognize).epochInstant_roundCount
  · exact .inl (.inl (by rw [← next]))

end Sys2Proof.Machine

namespace Sys2Proof

open Machine

/-- Settles O50: every move but an acknowledgement adds records at most, and RESTART leaves RESTARTED alone. -/
theorem logOnlyGrowsBetweenAcknowledgements : Obligations.LogOnlyGrowsBetweenAcknowledgements := by
  intro c s t h asserted release notAck
  rcases State.settles_of_exec h asserted release with (moves | ⟨u, -, -, rfl⟩) | ⟨-, -, -, u, -, -, rfl⟩
  · exact .inl (moves.log_prefix notAck)
  · exact .inr ⟨rfl, rfl⟩
  · obtain ⟨listen, log, -⟩ := u.restartEffect_epochInstant
    exact .inr ⟨log, listen⟩

/-- Settles O52: the rule of straps, BARRED, SETUP and store move by move; the round count is that of the mark's instant, of
RESET or of RESTART. -/
theorem storeStrapsBarredAndRoundCountMoveByRule : Obligations.StoreStrapsBarredAndRoundCountMoveByRule := by
  refine ⟨fun c s t h asserted release => ?_, fun c s t h => ?_⟩
  · obtain ⟨straps, barred, setup, store⟩ := State.follows_of_exec h asserted release
    exact ⟨straps, barred, setup, store⟩
  by_cases asserted : c = .resetAsserted
  · subst asserted
    cases h
    exact .inr (.inr (.inl ⟨rfl, .inl rfl⟩))
  by_cases release : ∃ straps held, c = .resetRelease straps held
  · obtain ⟨straps, held, rfl⟩ := release
    cases h
    exact .inr (.inr (.inl ⟨rfl, .inr (.inl ⟨straps, held, rfl⟩)⟩))
  by_cases mark : ∃ first, c = .markRecognized first
  · obtain ⟨first, rfl⟩ := mark
    rcases roundCount_of_markRecognized h with (same | advanced) | ⟨u, rfl⟩ | ⟨rfl, awaited, answer, u, rfl⟩
    · exact .inl same
    · exact .inr (.inl ⟨advanced, first, rfl⟩)
    · exact .inr (.inr (.inl ⟨rfl, .inr (.inr ⟨rfl, rfl⟩)⟩))
    · obtain ⟨listen, log, count⟩ := u.restartEffect_epochInstant
      exact .inr (.inr (.inr ⟨count, rfl, awaited, answer, listen, log⟩))
  have notMark (first) (e : c = .markRecognized first) : False := mark ⟨first, e⟩
  rcases State.settles_of_exec h asserted (fun straps held e => release ⟨straps, held, e⟩) with
    (moves | ⟨u, -, -, rfl⟩) | ⟨e, -⟩
  · exact .inl (moves.roundCount notMark)
  · exact .inr (.inr (.inl ⟨rfl, .inr (.inr ⟨rfl, rfl⟩)⟩))
  · exact absurd e (notMark _)

end Sys2Proof
end

section
/-! PROOFS. The queue, RESET and its values, and the counters that stop: what holds of every command, and of the node at and
under RESET (R77, sections 4.9 and 6.1 of the scope). -/

namespace Sys2Proof.Machine

open Relation

variable {c : Instr} {s t u : State}

/-! ### The queue -/

theorem exec_next (c : Instr) (s : State) : ∃ t, exec c s = .next t := by
  cases c <;> exact ⟨_, rfl⟩

theorem State.Move.pending (move : State.Move c s t) : t.pending = s.pending := by
  cases move with
  | line | node | round | offer | acknowledge | sampler | aux | clearIntake | intake | forget | await | store | listen | activate
  | mute => rfl
  | close =>
    obtain ⟨-, -, -, -, -, -, pending, -⟩ := s.snapshotClose_frame
    exact pending
  | place f => rcases s.placeFrame_cases f with e | e <;> rw [e] <;> rfl
  | claim => rw [State.claimMark_eq]; rfl
  | quietOwed =>
    rcases s.quietOwed_cases with ⟨_, e⟩ | ⟨_, _, e⟩ <;> rw [e]
    rfl
  | bar tag => rw [State.countRun_enterBarred]
  | instant => rw [s.epochRound_eq.1]; rfl

theorem State.Moves.pending (moves : s.Moves c t) : t.pending = s.pending := by
  induction moves with
  | refl => rfl
  | tail _ move ih => exact move.pending.trans ih

/-- No command touches the queue. -/
theorem pending_of_exec (h : exec c s = .next t) : t.pending = s.pending := by
  by_cases asserted : c = .resetAsserted
  · subst asserted
    cases h
    rfl
  by_cases release : ∃ straps held, c = .resetRelease straps held
  · obtain ⟨straps, held, rfl⟩ := release
    cases h
    rfl
  rcases State.settles_of_exec h asserted (fun straps held e => release ⟨straps, held, e⟩) with
    (moves | ⟨u, moves, -, rfl⟩) | ⟨-, -, -, u, moves, -, rfl⟩
  · exact moves.pending
  · exact moves.pending
  · obtain ⟨-, kept, -⟩ := u.restartEffect.epochInstant_frame
    exact kept.trans moves.pending

/-! ### RESET -/

theorem State.heldInReset_heldInReset (s : State) : s.heldInReset.heldInReset = s.heldInReset := rfl

/-- While RESET is held no command acts but its release and the AUX input, which follows the sensor. -/
theorem exec_of_held (held : s.node.resetHeld = true) (asserted : c ≠ .resetAsserted)
    (release : ∀ straps lineHeld, c ≠ .resetRelease straps lineHeld) (edge : ∀ rising clocks, c ≠ .auxEdge rising clocks) :
    exec c s = .next s := by
  cases c
  case resetAsserted => exact absurd rfl asserted
  case resetRelease straps lineHeld => exact absurd rfl (release straps lineHeld)
  case auxEdge rising clocks => exact absurd rfl (edge rising clocks)
  all_goals exact congrArg Host.Outcome.next (State.unlessReset_of_held _ held)

theorem State.Invariant.atRelease {P : State → Prop} (inv : State.Invariant P) (straps : Straps) (held pin : Bool) :
    P (State.atRelease straps held pin) := inv.release straps held pin []

/-! ### Counters -/

/-- A saturating counter stops at its maximum. -/
theorem toNat_satAdd {w : Nat} (x : BitVec w) (n : Nat) : (satAdd x n).toNat = min (2 ^ w - 1) (x.toNat + n) := by
  unfold satAdd
  split
  · next fits => rw [BitVec.toNat_ofNat, Nat.mod_eq_of_lt fits, Nat.min_eq_right (Nat.le_sub_one_of_lt fits)]
  · next beyond => rw [BitVec.toNat_allOnes, Nat.min_eq_left (by omega)]

theorem EventLog.offer_of_full {l : EventLog} (r : EventRecord) (full : l.records.length = 16) :
    l.offer r = { l with dropped := satInc l.dropped } := by
  unfold EventLog.offer
  rw [if_neg (by rw [full]; decide)]

theorem EventLog.offer_of_room {l : EventLog} (r : EventRecord) (room : l.records.length < 16) :
    l.offer r = { l with records := l.records ++ [r] } := if_pos room

end Sys2Proof.Machine

namespace Sys2Proof

open Machine

/-- Settles O1: the step of a queue with a front command, and of an empty one. -/
theorem stepRunsFrontCommand : Obligations.StepRunsFrontCommand := by
  refine ⟨fun c rest s front => ?_, fun s empty => ?_⟩
  · rw [step, front]
    rfl
  · rw [step, empty]

/-- Settles O2: every arm of `exec` goes on, and no move and no RESET touches the queue. -/
theorem everyCommandAnswersNext : Obligations.EveryCommandAnswersNext := by
  intro c s
  obtain ⟨t, h⟩ := exec_next c s
  exact ⟨t, h, pending_of_exec h⟩

/-- Settles O3: the values of the reset tables, field by field. -/
theorem resetReleaseTakesPowerOnValues : Obligations.ResetReleaseTakesPowerOnValues := by
  intro straps held s
  have limits (g : Fin 8) : defaultStore.limit g = defaultLimit := by simp [Store.limit, defaultStore]
  refine ⟨_, rfl, rfl, rfl, rfl, rfl, rfl, rfl, rfl, rfl, Table.getElem_cleared, rfl, rfl, Groups.getElem_cleared, rfl, rfl, rfl,
    fun g => ?_, Handler.digest_atRelease, rfl, rfl, rfl, rfl⟩
  have limit : (State.atRelease straps held s.aux.pin).handler.store.limit g = defaultLimit := limits g
  simp only [limit]
  decide

/-- Settles O4: the values under RESET, and every row's guard. -/
theorem resetHeldTakesNothing : Obligations.ResetHeldTakesNothing := by
  intro s
  refine ⟨s.heldInReset, rfl, rfl, rfl, rfl, rfl, rfl, rfl, rfl, rfl, rfl, fun c release edge => ?_⟩
  by_cases asserted : c = .resetAsserted
  · rw [asserted]
    exact congrArg Host.Outcome.next s.heldInReset_heldInReset
  · exact exec_of_held rfl asserted release edge

/-- Settles O51: an offer in a log with room and in a full one, and the sum that stops at the counter's maximum. -/
theorem logAndCountersStopAtTheirMaximum : Obligations.LogAndCountersStopAtTheirMaximum := by
  refine ⟨fun l r => ⟨EventLog.offer_of_room r, fun full => ?_⟩, fun w c n => ⟨toNat_satAdd c n, rfl⟩⟩
  rw [EventLog.offer_of_full r full]
  exact ⟨rfl, toNat_satAdd l.dropped 1⟩

/-- Settles O53: RESET gives each invariant, and the machine's own reset is one release. -/
theorem invariantsHoldAtReset : Obligations.InvariantsHoldAtReset := by
  intro straps held pin s reset
  obtain ⟨straps, held, pin, rfl⟩ : ∃ straps held pin, s = State.atRelease straps held pin := by
    rcases reset with rfl | rfl
    · exact ⟨straps, held, pin, rfl⟩
    · exact ⟨Straps.allLow, false, false, rfl⟩
  exact ⟨State.logBounded_invariant.atRelease _ _ _, State.intakeOk_invariant.atRelease _ _ _,
    State.postOk_invariant.atRelease _ _ _, State.runOk_invariant.atRelease _ _ _, State.silentOk_invariant.atRelease _ _ _,
    State.measuringOk_invariant.atRelease _ _ _, State.storeOk_invariant.atRelease _ _ _,
    State.alarmOk_invariant.atRelease _ _ _, State.entriesOk_invariant.atRelease _ _ _,
    State.recordsOk_invariant.atRelease _ _ _, State.phaseOk_invariant.atRelease _ _ _,
    (State.timersWithPostOk_invariant.atRelease _ _ _).2, State.muteOk_invariant.atRelease _ _ _,
    State.receiverOk_invariant.atRelease _ _ _, State.adoptionOk_invariant.atRelease _ _ _⟩

end Sys2Proof
end

section
/-! PROOFS. The commands of the line interface: what each of them does, by the line condition that it finds (section 1). -/

namespace Sys2Proof.Machine

variable {s : State}

/-- A row whose guard is a condition that holds, with RESET not held. -/
theorem next_of_guard {p : Prop} [Decidable p] {a b : State} (clear : s.node.resetHeld = false) (guard : p) :
    (.next (s.unlessReset (if p then a else b)) : Host.Outcome State Fault Refusal) = .next a := by
  rw [State.unlessReset_of_clear _ clear, if_pos guard]

/-! ### Holds and releases -/

theorem State.giveUpAnswer_of_no_answer (noAnswer : s.line.slot.hasAnswer = false) : s.giveUpAnswer = s := by
  rw [State.giveUpAnswer, if_neg (by rw [noAnswer]; exact Bool.false_ne_true)]

theorem exec_frameStart_begins (clear : s.node.resetHeld = false) (cond : s.line.cond = .opened ∨ s.line.cond = .gap)
    (noAnswer : s.line.slot.hasAnswer = false) : exec .frameStart s = .next (s.withLine s.line.begun) := by
  have gives : (s.withLine s.line.frameBegin).giveUpAnswer = s.withLine s.line.begun :=
    State.giveUpAnswer_of_no_answer noAnswer
  rcases cond with cond | cond
  · simp only [exec, execFrameStart, State.unlessReset_of_clear _ clear, cond]
    rfl
  · simp only [exec, execFrameStart, State.unlessReset_of_clear _ clear, cond, gives]

theorem Slot.isSending_iff (x : Slot) : x.isSending = true ↔ ∃ f, x = .sending f := by
  cases x <;> simp [Slot.isSending]

/-! ### Start opportunities -/

theorem exec_startOpportunity_of_waiting {f : TxFrame} (aligned : Bool) (clear : s.node.resetHeld = false)
    (cond : s.line.cond = .gap ∨ s.line.cond = .resync) (waiting : s.line.slot = .waiting f) :
    exec (.startOpportunity aligned) s = .next (s.withLine { s.line.begun with slot := .sending f }) := by
  simp only [exec, execStartOpportunity, next_of_guard clear cond]
  cases aligned
  · simp only [Bool.false_eq_true, if_false, State.startWaiting, State.line_withLine, Line.reachFrameGap, waiting]
    rfl
  · simp only [if_true, State.startAligned, waiting]
    rfl

/-- Without a waiting frame the opportunity opens the line, or finds another station's hold. -/
theorem exec_startOpportunity_of_not_waiting (clear : s.node.resetHeld = false)
    (cond : s.line.cond = .gap ∨ s.line.cond = .resync) (none : ∀ f : TxFrame, s.line.slot ≠ .waiting f) :
    exec (.startOpportunity false) s = .next (s.withLine s.line.reachFrameGap) ∧
    exec (.startOpportunity true) s = .next (s.withLine (if s.line.cond = .gap then s.line.begun else s.line)) := by
  simp only [exec, execStartOpportunity, next_of_guard clear cond, Bool.false_eq_true, if_false, if_true,
    State.startWaiting, State.startAligned, State.line_withLine, Line.reachFrameGap]
  cases slot : s.line.slot with
  | waiting f => exact absurd slot (none f)
  | empty | sending =>
    refine ⟨rfl, ?_⟩
    rcases cond with cond | cond <;> simp only [cond, reduceCtorEq, if_true, if_false] <;> rfl

/-! ### Quiet -/

theorem State.postingClose_of_not_posting (cause : CloseCause) (phase : s.round.phase ≠ .posting) : s.postingClose cause = s :=
  if_neg phase

/-- With the line-fault flag clear the quiet ends no fault. -/
theorem State.quietLine_of_no_fault (fault : s.line.fault = false) : s.quietLine = s := by
  rw [State.quietLine, if_neg (by rw [fault]; exact Bool.false_ne_true)]

/-- With no mark owed the quiet originates none. -/
theorem State.quietOwed_of_none (owed : s.round.owed = none) : s.quietOwed = s := by
  rw [State.quietOwed, owed]

/-- With the other two parts idle, the quiet is its part of the owed mark, whatever the order. -/
theorem State.quietParts_owed (order : QuietOrder) (fault : s.line.fault = false) (phase : s.round.phase ≠ .posting) :
    s.quietParts order = s.quietOwed := by
  have line : s.quietLine = s := State.quietLine_of_no_fault fault
  have close : s.quietClose = s := State.postingClose_of_not_posting _ phase
  have line' : s.quietOwed.quietLine = s.quietOwed := by
    rcases s.quietOwed_cases with ⟨_, e⟩ | ⟨_, _, e⟩ <;> rw [e] <;> exact State.quietLine_of_no_fault fault
  have close' : s.quietOwed.quietClose = s.quietOwed := by
    rcases s.quietOwed_cases with ⟨_, e⟩ | ⟨_, _, e⟩ <;> rw [e] <;> exact State.postingClose_of_not_posting _ phase
  cases order <;> simp only [State.quietParts, line, close, line', close']

/-- With the other two parts idle, the quiet is its part of the line fault, whatever the order. -/
theorem State.quietParts_line (order : QuietOrder) (owed : s.round.owed = none) (phase : s.round.phase ≠ .posting) :
    s.quietParts order = s.quietLine := by
  have close : s.quietClose = s := State.postingClose_of_not_posting _ phase
  have mark : s.quietOwed = s := State.quietOwed_of_none owed
  have round : s.quietLine.round = s.round := by
    unfold State.quietLine
    split <;> rfl
  have close' : s.quietLine.quietClose = s.quietLine := State.postingClose_of_not_posting _ (by rw [round]; exact phase)
  have mark' : s.quietLine.quietOwed = s.quietLine := State.quietOwed_of_none (by rw [round]; exact owed)
  cases order <;> simp only [State.quietParts, close, mark, close', mark']

theorem exec_quietForPhaseGap (order : QuietOrder) (clear : s.node.resetHeld = false) (cond : s.line.cond = .opened)
    (window : s.line.window = false) :
    exec (.quietForPhaseGap order) s = .next ((s.withLine { s.line with releasedRun := 96 }).quietParts order) :=
  next_of_guard clear ⟨cond, window⟩

/-! ### Malformed frames -/

/-- The condition a malformed frame leaves (R29, R30). -/
theorem Line.judgeOctets_of_malformed {l : Line} {octets : List Byte} {cause : MalformedCause}
    (judged : judge octets = .malformed cause) : l.judgeOctets octets =
      { l with cond := if cause = .checkMismatch then .gap else .resync,
               lineHeld := if cause = .checkMismatch then false else l.lineHeld,
               holdRun := 0, releasedRun := 0, receiving := false, window := false,
               rxErrors := if l.markHold then l.rxErrors else satInc l.rxErrors } := by
  cases cause <;> simp only [Line.judgeOctets, judged] <;> rfl

theorem readCell_of_released {cell : CellLevels} (q1 : cell.q1 = false) : readCell cell = .releasedAtQ1 := by
  simp [readCell, q1]

theorem readCell_of_held {cell : CellLevels} (q1 : cell.q1 = true) (q4 : cell.q4 = true) : readCell cell = .heldAtQ4 := by
  simp [readCell, q1, q4]

theorem Line.judgeShape_of_error {l : Line} {cell : CellLevels}
    (error : (cell.q1 = false ∧ l.cond = .frame) ∨ (cell.q1 = true ∧ cell.q4 = true ∧ l.cond = .longHold)) :
    l.judgeShape cell = { l.ended false with
      cond := .resync, rxErrors := if l.markHold then l.rxErrors else satInc l.rxErrors } := by
  rcases error with ⟨q1, cond⟩ | ⟨q1, q4, cond⟩
  · simp only [Line.judgeShape, readCell_of_released q1, cond]
    rfl
  · simp only [Line.judgeShape, readCell_of_held q1 q4, cond]
    rfl

/-! ### First octets -/

/-- The frames whose first octet closes a posting phase (R51). -/
theorem firstOctetKind_closes_iff (octet : Byte) :
    (firstOctetKind octet = .answer ∨ firstOctetKind octet = .request) ↔ 64 ≤ octet.toNat ∧ octet.toNat < 192 := by
  revert octet
  decide +kernel

theorem exec_firstOctetComplete_of_other {octet : Byte} (hears : s.Hearing)
    (other : ¬ (64 ≤ octet.toNat ∧ octet.toNat < 192)) : exec (.firstOctetComplete octet) s = .next s := by
  rw [← firstOctetKind_closes_iff, not_or] at other
  simp only [exec, execFirstOctetComplete, next_of_guard hears.1 hears.2]
  cases kind : firstOctetKind octet with
  | answer => exact absurd kind other.1
  | request => exact absurd kind other.2
  | post | invalid => rfl

theorem exec_firstOctetComplete_of_closes {octet : Byte} (hears : s.Hearing) (low : 64 ≤ octet.toNat)
    (high : octet.toNat < 192) : exec (.firstOctetComplete octet) s = .next (s.postingClose .firstOctet) := by
  have closes := (firstOctetKind_closes_iff octet).mpr ⟨low, high⟩
  simp only [exec, execFirstOctetComplete, next_of_guard hears.1 hears.2]
  rcases closes with kind | kind <;> rw [kind]

/-- A posting close in POSTING begins REQUEST and takes a POST from the slot. -/
theorem State.postingClose_phase_and_line (cause : CloseCause) (phase : s.round.phase = .posting) :
    (s.postingClose cause).round.phase = .request ∧
    (s.postingClose cause).line = { s.line with slot := if s.line.slot.hasPost then .empty else s.line.slot } := by
  have line : (s.dropUnsentPost cause).line = { s.line with slot := if s.line.slot.hasPost then .empty else s.line.slot } := by
    rcases s.dropUnsentPost_cases cause with ⟨post, e⟩ | ⟨post, e⟩ <;> rw [e, post] <;> rfl
  obtain ⟨judged, -, -⟩ := (s.dropUnsentPost cause).judgeDuplicate_frame
  simp only [State.postingClose, if_pos phase]
  split
  · rw [State.snapshotClose_line, State.snapshotClose_round]
    exact ⟨rfl, judged.trans line⟩
  · exact ⟨rfl, judged.trans line⟩

/-- In LISTEN a posting close with no POST in the slot is the phase alone. -/
theorem State.postingClose_of_listen (cause : CloseCause) (phase : s.round.phase = .posting) (listen : s.node.state = .listen)
    (noPost : s.line.slot.hasPost = false) :
    s.postingClose cause = s.withRound { s.round with phase := .request } := by
  have judged : s.node.judged = s.node := by simp [Node.judged, listen]
  rw [State.postingClose_of_no_post cause noPost, if_pos phase, listen, if_neg (by decide), State.atRequest, judged]
  rfl

/-! ### Received frames -/

theorem exec_postReceived {octets : List Byte} {p : Post} (hears : s.Hearing) (judged : judge octets = .valid (.post p)) :
    exec (.postReceived octets) s = .next ((s.withLine (s.line.ended false)).deliverPost p) := by
  simp only [exec, execPostReceived, next_of_guard hears.1 hears.2, judged]
  rfl

theorem State.deliverPost_of_posting (p : Post) (phase : s.round.phase = .posting)
    (kept : s.node.state ≠ .listen ∨ s.node.adoption = .posted) :
    s.deliverPost p = s.withTable { s.table with intake := intakePost p s.table.intake } := by
  simp only [State.deliverPost, phase]
  exact if_neg fun adopts => kept.elim (fun no => no adopts.1) fun posted => adopts.2 posted

theorem State.deliverPost_of_adopting (p : Post) (phase : s.round.phase = .posting) (listen : s.node.state = .listen)
    (adoption : s.node.adoption ≠ .posted) :
    s.deliverPost p = ((s.withTable { s.table with intake := intakePost p s.table.intake }).withNode
      { s.node with adoption := .posted }).withRound { s.round with tag := p.tag + 1 } := by
  simp only [State.deliverPost, phase]
  exact if_pos ⟨listen, adoption⟩

theorem intakePost_of_new (p : Post) {list : List Post} (new : p.source ∉ list.map (·.source)) :
    intakePost p list = list ++ [p] := by
  induction list with
  | nil => rfl
  | cons q rest ih =>
    rw [List.map_cons, List.mem_cons, not_or] at new
    obtain ⟨other, new⟩ := new
    rw [intakePost, if_neg (Ne.symm other), ih new, List.cons_append]

/-- No post of the source is left in a list without it. -/
theorem map_replace_of_new (p : Post) {list : List Post} (new : p.source ∉ list.map (·.source)) :
    (list.map fun q => if q.source = p.source then p else q) = list := by
  conv => rhs; rw [← List.map_id list]
  refine List.map_congr_left fun q mem => if_neg fun same => new ?_
  rw [← same]
  exact List.mem_map_of_mem mem

theorem intakePost_of_known (p : Post) {list : List Post} (nodup : (list.map (·.source)).Nodup)
    (known : p.source ∈ list.map (·.source)) :
    intakePost p list = list.map fun q => if q.source = p.source then p else q := by
  induction list with
  | nil => cases known
  | cons q rest ih =>
    rw [List.map_cons, List.nodup_cons] at nodup
    obtain ⟨first, nodup⟩ := nodup
    rw [intakePost, List.map_cons]
    by_cases same : q.source = p.source
    · rw [if_pos same, if_pos same, map_replace_of_new p (by rw [← same]; exact first)]
    · have later : p.source ∈ rest.map (·.source) := (List.mem_cons.mp known).resolve_left (Ne.symm same)
      rw [if_neg same, if_neg same, ih nodup later]

theorem exec_answerReceived {octets : List Byte} {a : Answer} (hears : s.Hearing)
    (judged : judge octets = .valid (.answer a)) :
    exec (.answerReceived octets) s = .next (s.withLine (s.line.ended false)) := by
  simp only [exec, execAnswerReceived, next_of_guard hears.1 hears.2, judged]
  rfl

/-! ### Requests that reach no handler -/

section
variable {octets : List Byte} {r : Request}

theorem Request.broadcast_eq (r : Request) : r.broadcast = decide (r.target = 63#6) := by
  by_cases target : r.target = 63#6 <;> simp [Request.broadcast, target]

theorem State.addressed_eq_false (single : r.target ≠ 63#6) (other : s.sampling = false ∨ r.target ≠ s.own) :
    s.addressed r = false := by
  rcases other with other | other <;> simp [State.addressed, Request.broadcast, single, other]

theorem State.addressed_eq_true (addressed : r.target = 63#6 ∨ (s.sampling = true ∧ r.target = s.own)) :
    s.addressed r = true := by
  rcases addressed with target | ⟨sampling, target⟩
  · simp [State.addressed, Request.broadcast, target]
  · simp [State.addressed, sampling, target]

/-- The requests that a node state does not take (R156). -/
theorem NodeState.takes_eq_false {st : NodeState} (ignored : st = .barred ∨ (st = .mute ∧ r.code ≠ 19#8) ∨
    (st ≠ .mute ∧ r.target = 63#6 ∧ r.code ≠ 19#8 ∧ r.code ≠ 36#8)) : st.takes r = false := by
  rcases ignored with rfl | ⟨rfl, code⟩ | ⟨notMute, target, restart, close⟩
  · rfl
  · simpa [NodeState.takes, RequestCode.octet] using code
  · cases st <;> simp_all [NodeState.takes, RequestCode.octet, Request.broadcast]

/-- Such a request only ends on the line. -/
theorem State.onRequest_of_nothing {accepts : Request → Bool} (hears : s.Hearing) (request : requestOf octets = some r)
    (accepted : accepts r = true) : s.onRequest octets accepts handleNothing = s.withLine (s.line.requestEnd r) := by
  obtain ⟨-, cond⟩ := hears
  cases taken : s.addressed r && s.node.state.takes r
  · exact State.onRequest_of_untaken _ cond request accepted taken
  · rw [Bool.and_eq_true] at taken
    exact State.onRequest_of_taken _ cond request accepted taken.1 taken.2

theorem Line.requestEnd_eq (l : Line) (r : Request) : l.requestEnd r = l.ended (decide (r.target ≠ 63#6)) := by
  rw [Line.requestEnd, Request.broadcast_eq, decide_not]
  rfl

end

end Sys2Proof.Machine

namespace Sys2Proof

open Machine

/-- Settles O8: the rows of R5 and R6 by the condition that each finds. -/
theorem holdsAndReleasesMoveLineCondition : Obligations.HoldsAndReleasesMoveLineCondition := by
  intro s clear
  refine ⟨fun cond noAnswer => exec_frameStart_begins clear cond noAnswer,
    fun cond => ⟨next_of_guard clear cond, ?_⟩, fun cond => ?_, fun cond quiet => ?_,
    fun cond => next_of_guard clear cond, fun cond window => next_of_guard clear ⟨cond, window⟩⟩
  · exact State.drivesLine_of_not_frame nofun
  · rw [State.drivesLine_of_frame cond, Bool.or_eq_true, Slot.isSending_iff]
  · simp only [exec, execLongHoldReleased, next_of_guard clear cond, quiet, Bool.false_eq_true, if_false]
    rfl

/-- Settles O9: a waiting frame starts at the opportunity, and without one the line opens or another's hold begins a frame. -/
theorem startOpportunityStartsWaitingFrame : Obligations.StartOpportunityStartsWaitingFrame :=
  fun _ clear cond => ⟨fun _ aligned waiting => exec_startOpportunity_of_waiting aligned clear cond waiting,
    fun none => exec_startOpportunity_of_not_waiting clear cond none⟩

/-- Settles O10: the two ends of a mark. -/
theorem markEndOpensPosting : Obligations.MarkEndOpensPosting :=
  fun _ clear => ⟨fun cond => next_of_guard clear cond, congrArg Host.Outcome.next (State.unlessReset_of_clear _ clear)⟩

/-- Settles O11: the flag at 64 cells of hold, and its end at the quiet, whatever the order of the quiet's parts. -/
theorem stuckLineIsFlaggedAndReleased : Obligations.StuckLineIsFlaggedAndReleased := by
  intro s clear
  refine ⟨fun cond fault => ?_, fun cond fault => ?_, fun order cond window fault owed phase => ?_⟩
  · simp only [exec, execLineStuck, next_of_guard clear cond, fault, Bool.false_eq_true, if_false]
    rfl
  · simp only [exec, execLineStuck, next_of_guard clear cond, fault, if_true]
    rcases s with ⟨_, ⟨_, _, _, _, _, _, _, _, _, _, _⟩, _, _, _, _, _, _, _, _⟩
    cases fault
    rfl
  · rw [exec_quietForPhaseGap order clear cond window, State.quietParts_line (s := s.withLine { s.line with releasedRun := 96 }) order owed phase]
    simp only [State.quietLine, State.line_withLine, fault, if_true]
    rfl

/-- Settles O12: with no fault to end and no posting phase to close, every order of the quiet originates the owed mark. -/
theorem quietOriginatesOwedMark : Obligations.QuietOriginatesOwedMark := by
  intro s cause order clear cond window fault phase owed
  rw [exec_quietForPhaseGap order clear cond window,
    State.quietParts_owed (s := s.withLine { s.line with releasedRun := 96 }) order fault phase]
  simp only [State.quietOwed, State.round_withLine, owed]
  cases cause <;> rfl

/-- Settles O13: the three judgments of a malformed frame and what each leaves of the line. -/
theorem malformedFrameIsCountedOnce : Obligations.MalformedFrameIsCountedOnce := by
  intro s clear receiving
  refine ⟨fun octets cause cond judged => ?_, fun cell error => ?_, fun cond => ?_⟩
  · simp only [exec, execMalformedFrame, next_of_guard clear receiving, if_pos cond, Line.judgeOctets_of_malformed judged]
    rfl
  · simp only [exec, execMalformedFrame, next_of_guard clear receiving, Line.judgeShape_of_error error]
    rfl
  · simp only [exec, execLongHoldReleased, next_of_guard clear cond, receiving, if_true]
    rfl

/-- Settles O14: the kinds that close, and what a posting close with and without a POST in the slot leaves. -/
theorem firstOctetClosesPostingOnly : Obligations.FirstOctetClosesPostingOnly := by
  intro s octet hears
  refine ⟨fun other => ?_, fun phase low high listen noPost => ?_, fun phase low high => ?_⟩
  · by_cases closes : 64 ≤ octet.toNat ∧ octet.toNat < 192
    · have phase : s.round.phase ≠ .posting := by
        rcases other with phase | below | above
        · exact phase
        · omega
        · omega
      rw [exec_firstOctetComplete_of_closes hears closes.1 closes.2, State.postingClose_of_not_posting _ phase]
    · exact exec_firstOctetComplete_of_other hears closes
  · rw [exec_firstOctetComplete_of_closes hears low high, State.postingClose_of_listen _ phase listen noPost]
    rfl
  · obtain ⟨request, line⟩ := State.postingClose_phase_and_line .firstOctet phase
    exact ⟨_, exec_firstOctetComplete_of_closes hears low high, request, line⟩

/-- Settles O15: the delivery by phase and adoption, and the place of an arrival in the list. -/
theorem postJoinsIntakeInPosting : Obligations.PostJoinsIntakeInPosting := by
  refine ⟨fun s octets p hears judged => ?_, fun p list nodup => ⟨intakePost_of_new p, intakePost_of_known p nodup⟩⟩
  rw [exec_postReceived hears judged]
  obtain ⟨-, outside, -⟩ := (s.withLine (s.line.ended false)).deliverPost_frame p
  refine ⟨fun phase => ?_, fun phase kept => ?_, fun phase listen adoption => ?_⟩
  · rw [outside phase]
    rfl
  · rw [State.deliverPost_of_posting (s := s.withLine (s.line.ended false)) p phase kept]
    rfl
  · rw [State.deliverPost_of_adopting (s := s.withLine (s.line.ended false)) p phase listen adoption]
    rfl

/-- Settles O16: a frame that no block takes ends on the line alone. -/
theorem framesForOthersOnlyEndOnTheLine : Obligations.FramesForOthersOnlyEndOnTheLine := by
  intro s octets hears
  refine ⟨fun a judged => exec_answerReceived hears judged, fun r request single other => ?_,
    fun r request addressed ignored => ?_⟩
  · have accepted : (!s.addressed r) = true := by rw [State.addressed_eq_false single other]; rfl
    simp only [exec, execRequestOtherTarget, State.unlessReset_of_clear _ hears.1,
      State.onRequest_of_nothing (accepts := fun r => !s.addressed r) hears request accepted, Line.requestEnd_eq,
      decide_eq_true single]
    rfl
  · have accepted : (s.addressed r && !s.node.state.takes r) = true := by
      rw [State.addressed_eq_true addressed, NodeState.takes_eq_false ignored]
      rfl
    simp only [exec, execRequestIgnored, State.unlessReset_of_clear _ hears.1,
      State.onRequest_of_nothing (accepts := fun r => s.addressed r && !s.node.state.takes r) hears request accepted,
      Line.requestEnd_eq]
    rfl

end Sys2Proof
end

section
/-! PROOFS. The epoch instant by node state (section 3.3): what a recognized mark does in a node that samples, in one that does
not, in LISTEN and in MUTE. -/

namespace Sys2Proof.Machine

variable {s : State}

/-! ### A recognized mark without an ANSWER in the slot -/

theorem Line.recognize_of_no_answer {l : Line} (noAnswer : l.slot.hasAnswer = false) : l.recognize = l.atMark l.slot := by
  rw [Line.recognize, noAnswer]
  rfl

theorem exec_markRecognized_of_no_answer (first : TakenFirst) (clear : s.node.resetHeld = false)
    (cond : s.line.cond = .longHold) (noAnswer : s.line.slot.hasAnswer = false) :
    exec (.markRecognized first) s = .next (s.withLine (s.line.atMark s.line.slot)).epochInstant := by
  simp only [exec, execMarkRecognized, next_of_guard clear cond, noAnswer, Bool.false_eq_true, if_false,
    Line.recognize_of_no_answer]

/-! ### The stages -/

theorem State.epochInstant_of_not_setup (notSetup : s.node.state ≠ .setup) :
    s.epochInstant = s.epochStages.epochMeasure.epochPost s.epochStages.sampler.handOver s.epochStages.auxHandOver :=
  if_neg notSetup

/-- An instant takes node, controller, table, groups and store from its first four stages, the sampler and the log from the
fifth. -/
theorem State.epochInstant_parts (notSetup : s.node.state ≠ .setup) :
    s.epochInstant.node = s.epochStages.node ∧ s.epochInstant.round = s.epochStages.round ∧
    s.epochInstant.table = s.epochStages.table ∧ s.epochInstant.groups = s.epochStages.groups ∧
    s.epochInstant.sampler = s.epochStages.epochMeasure.sampler ∧ s.epochInstant.log = s.epochStages.epochMeasure.log := by
  obtain ⟨measured, -⟩ := s.epochStages.epochMeasure_eq
  rw [State.epochInstant_of_not_setup notSetup, State.epochPost_eq]
  refine ⟨?_, ?_, ?_, ?_, rfl, rfl⟩ <;> rw [measured] <;> rfl

theorem State.epochClose_of_not_posting (phase : s.round.phase ≠ .posting) : s.epochClose = s.setSlot .empty := by
  rw [State.epochClose_eq, State.postingClose_of_not_posting _ phase]

theorem State.epochRound_of_not_listen (notListen : s.node.state ≠ .listen) :
    s.epochRound = s.withRound (s.round.atInstant s.period s.epochTag) := by
  simp only [State.epochRound, if_neg notListen]
  rfl

theorem State.epochRound_of_listen (listen : s.node.state = .listen) :
    s.epochRound = (s.withNode s.node.countMark).withRound
      { s.round.atInstant s.period s.epochTag with listenTimer := s.listenLoad } := by
  simp only [State.epochRound, if_pos listen]
  rfl

/-- The first four stages in ACTIVE and BARRED with no posting phase to close. -/
theorem State.epochStages_of_active_or_barred (state : s.node.state = .active ∨ s.node.state = .barred)
    (phase : s.round.phase ≠ .posting) :
    s.epochStages = ((s.setSlot .empty).withRound (s.round.atInstant s.period (s.round.tag + 1))).epochIntake := by
  have closed := State.epochClose_of_not_posting phase
  have stays : (s.setSlot .empty).epochNodeState = s.setSlot .empty := by
    rcases state with state | state <;> simp only [State.epochNodeState, State.setSlot_eq, State.node_withLine, state]
  have tag : (s.setSlot .empty).epochTag = s.round.tag + 1 := by
    rcases state with state | state <;>
      simp only [State.epochTag, State.setSlot_eq, State.node_withLine, State.round_withLine, state]
  have notListen : (s.setSlot .empty).node.state ≠ .listen := by
    rcases state with state | state <;> simp only [State.setSlot_eq, State.node_withLine, state] <;> nofun
  rw [State.epochStages, closed, stays, State.epochRound_of_not_listen notListen, tag]
  rfl

/-- Stage 5 in a node that does not sample. -/
theorem State.epochMeasure_of_no_samples (samples : s.samples = false) :
    s.epochMeasure = (s.withSampler { s.sampler with finished := none }).withAux { s.aux with result := none } := by
  rw [State.epochMeasure, if_neg (by rw [samples]; exact Bool.false_ne_true)]
  rfl

theorem State.epochMeasure_of_samples (samples : s.samples = true) : s.epochMeasure = s.startSampler.startAux :=
  if_pos samples

theorem State.startAux_eq (s : State) :
    s.startAux = s.withAux (if s.node.straps.auxEnabled then s.aux.start else s.aux) := by
  unfold State.startAux
  split <;> rfl

/-- The log after a start of the sampler: SAMPLE-OVERRUN with the stage that was in flight (R93). -/
def State.overrunLog (s : State) : EventLog :=
  match s.sampler.stage with
  | .idle => s.log
  | .excite => s.log.offer ⟨.sampleOverrun, s.round.roundCount, s.own, 1⟩
  | .settle => s.log.offer ⟨.sampleOverrun, s.round.roundCount, s.own, 2⟩
  | .count => s.log.offer ⟨.sampleOverrun, s.round.roundCount, s.own, 3⟩

theorem State.startSampler_overrun (s : State) : s.startSampler =
    (s.withSampler { s.sampler.start s.handler.store.plan s.handler.store.cal with
      overruns := if s.sampler.stage = .idle then s.sampler.overruns else satInc s.sampler.overruns }).withLog
      s.overrunLog := by
  unfold State.startSampler State.recordOverrun State.overrunLog
  cases stage : s.sampler.stage <;> rfl

/-- A start that finds nothing in flight writes no record. -/
theorem State.startSampler_of_idle (idle : s.sampler.stage = .idle) :
    s.startSampler = s.withSampler (s.sampler.start s.handler.store.plan s.handler.store.cal) := by
  simp only [State.startSampler, State.recordOverrun, idle, SamplerStage.code]

/-- What is handed over at an instant is what the POST carries (R47, R92). -/
theorem Sampler.getD_handOver (x : Sampler) : x.handOver.getD .notSampled = x.posted := by
  unfold Sampler.handOver Sampler.posted
  cases x.stage <;> rfl

/-- What the aux channel hands over: its result in IDLE. -/
theorem State.map_auxHandOver (s : State) : s.auxHandOver.map AuxResult.field =
    if s.node.straps.auxEnabled = true ∧ s.aux.stage = .idle then s.aux.result.map AuxResult.field else none := by
  unfold State.auxHandOver Aux.handOver
  cases s.node.straps.auxEnabled <;> cases s.aux.stage <;> rfl

/-- The POST of an instant, by what the first four stages left (R47). -/
def State.instantPost (s : State) : Post :=
  { source := s.own, tag := s.round.tag - 1, group := s.node.straps.group, reading := s.sampler.posted,
    aux := if s.node.straps.auxEnabled = true ∧ s.aux.stage = .idle then s.aux.result.map AuxResult.field else none,
    alarm := s.groups.alarm }

/-- The last two stages in an ACTIVE sampling node: both blocks start, and the line is not OPEN at a mark, so the POST waits. -/
theorem State.epochInstant_of_posting (notSetup : s.node.state ≠ .setup) (active : s.epochStages.node.state = .active)
    (sampling : s.epochStages.sampling = true) (cond : s.epochStages.line.cond ≠ .opened) :
    s.epochInstant = s.epochStages.startSampler.startAux.setSlot (.waiting (.post s.epochStages.instantPost)) := by
  have samples : s.epochStages.samples = true := by simp [State.samples, sampling, active]
  obtain ⟨measured, -⟩ := s.epochStages.epochMeasure_eq
  have post : s.epochStages.epochMeasure.pendingPost s.epochStages.sampler.handOver s.epochStages.auxHandOver =
      s.epochStages.instantPost := by
    rw [measured, State.pendingPost, Sampler.getD_handOver, State.map_auxHandOver]
    rfl
  have kept : s.epochStages.epochMeasure.node = s.epochStages.node ∧
      s.epochStages.epochMeasure.line = s.epochStages.line := by
    rw [measured]
    exact ⟨rfl, rfl⟩
  obtain ⟨node, line⟩ := kept
  have posts : s.epochStages.epochMeasure.node.state = .active ∧ s.epochStages.epochMeasure.sampling = true := by
    rw [State.sampling, node]
    exact ⟨active, sampling⟩
  rw [State.epochInstant_of_not_setup notSetup, State.epochPost, if_pos posts, State.placeFrame, line, if_neg cond, post,
    State.epochMeasure_of_samples samples]

/-- The last two stages in a node that does not sample: what the blocks hold is discarded, and nothing is posted. -/
theorem State.epochInstant_of_no_samples (notSetup : s.node.state ≠ .setup) (samples : s.epochStages.samples = false) :
    s.epochInstant = (s.epochStages.withSampler { s.epochStages.sampler with finished := none }).withAux
      { s.epochStages.aux with result := none } := by
  have silent : ¬ (s.epochStages.node.state = .active ∧ s.epochStages.sampling = true) := by
    rintro ⟨active, sampling⟩
    simp [State.samples, sampling, active] at samples
  rw [State.epochInstant_of_not_setup notSetup, State.epochMeasure_of_no_samples samples]
  exact if_neg silent

/-- Nothing is posted outside ACTIVE. -/
theorem State.epochInstant_line_of_not_active (notSetup : s.node.state ≠ .setup)
    (notActive : s.epochStages.node.state ≠ .active) : s.epochInstant.line = s.epochStages.line := by
  obtain ⟨measured, -⟩ := s.epochStages.epochMeasure_eq
  have node : s.epochStages.epochMeasure.node = s.epochStages.node := by rw [measured]; rfl
  rw [State.epochInstant_of_not_setup notSetup, State.epochPost, if_neg (by rw [node]; exact fun posts => notActive posts.1),
    measured]
  rfl

theorem State.samples_of_mute_or_active (sampling : s.sampling = true) (state : s.node.state = .active ∨ s.node.state = .mute) :
    s.samples = true := by
  rcases state with state | state <;> simp [State.samples, sampling, state]

/-! ### LISTEN (R64 to R66) -/

/-- In LISTEN with an EMPTY slot the close changes the phase alone. -/
theorem State.epochClose_of_listen (listen : s.node.state = .listen) (empty : s.line.slot = .empty) :
    ∃ phase : Phase, s.epochClose = s.withRound { s.round with phase := phase } := by
  have slot (r : Round) : (s.withRound r).setSlot .empty = s.withRound r := by
    rw [State.setSlot_eq, State.line_withRound, ← empty]
    rfl
  by_cases posting : s.round.phase = .posting
  · refine ⟨.request, ?_⟩
    rw [State.epochClose_eq, State.postingClose_of_listen _ posting listen (by rw [empty]; rfl), slot]
  · exact ⟨s.round.phase, (State.epochClose_of_not_posting posting).trans (slot s.round)⟩

/-- The node when an instant takes it from LISTEN to ACTIVE (R66). -/
def Node.joined (n : Node) : Node := { n with state := .active, adoption := .none, silentMarks := 0, listenClaim := false }

theorem State.epochRound_enterActive (s : State) : s.enterActive.epochRound = (s.withNode s.node.joined).withRound
    { s.round.atInstant s.period (s.round.tag + 1) with listenTimer := none } := by
  have active : s.enterActive.node.state = .active := rfl
  have tag : s.enterActive.epochTag = s.round.tag + 1 := by rw [State.epochTag, active]; rfl
  rw [State.epochRound_of_not_listen (by rw [active]; nofun), tag]
  rfl

/-- The first four stages of an instant that takes the node from LISTEN to ACTIVE with this tag. -/
def State.joinedStages (s : State) (tag : BitVec 8) : State :=
  ((s.withNode s.node.joined).withRound { s.round.atInstant s.period tag with listenTimer := none }).epochIntake

theorem State.epochStages_of_adopted (listen : s.node.state = .listen) (empty : s.line.slot = .empty)
    (adopted : s.node.adoption ≠ .none) : s.epochStages = s.joinedStages (s.round.tag + 1) := by
  obtain ⟨phase, closed⟩ := State.epochClose_of_listen listen empty
  rw [State.epochStages, closed]
  have enters : (s.withRound { s.round with phase := phase }).epochNodeState =
      (s.withRound { s.round with phase := phase }).enterActive := by
    cases adoption : s.node.adoption with
    | none => exact absurd adoption adopted
    | silent | posted => simp only [State.epochNodeState, State.node_withRound, listen, adoption]
  rw [enters, State.epochRound_enterActive]
  rfl

theorem State.epochStages_of_claimed (listen : s.node.state = .listen) (empty : s.line.slot = .empty)
    (adoption : s.node.adoption = .none) (claim : s.node.listenClaim = true) : s.epochStages = s.joinedStages 0 := by
  obtain ⟨phase, closed⟩ := State.epochClose_of_listen listen empty
  rw [State.epochStages, closed]
  have enters : (s.withRound { s.round with phase := phase }).epochNodeState =
      (s.withRound { s.round with phase := phase, tag := 255 }).enterActive := by
    simp only [State.epochNodeState, State.node_withRound, listen, adoption, claim, if_true]
    rfl
  have wraps : (255 : BitVec 8) + 1 = 0 := by decide
  rw [enters, State.epochRound_enterActive, ← wraps]
  rfl

theorem State.epochStages_of_silent (listen : s.node.state = .listen) (empty : s.line.slot = .empty)
    (adoption : s.node.adoption = .none) (claim : s.node.listenClaim = false) :
    s.epochStages = ((s.withNode s.node.countMark).withRound
      { s.round.atInstant s.period s.epochTag with listenTimer := s.listenLoad }).epochIntake := by
  obtain ⟨phase, closed⟩ := State.epochClose_of_listen listen empty
  rw [State.epochStages, closed]
  have stays : (s.withRound { s.round with phase := phase }).epochNodeState = s.withRound { s.round with phase := phase } := by
    simp only [State.epochNodeState, State.node_withRound, listen, adoption, claim, Bool.false_eq_true, if_false]
  have rounds := State.epochRound_of_listen (s := s.withRound { s.round with phase := phase }) listen
  rw [stays, rounds]
  rfl

/-- Whatever the first four stages do in LISTEN, they keep all but the node, the controller and the intake list. -/
theorem State.epochStages_of_listen (listen : s.node.state = .listen) (empty : s.line.slot = .empty) :
    ∃ (node : Node) (tag : BitVec 8) (timer : Timer), s.epochStages =
      ((s.withNode node).withRound { s.round.atInstant s.period tag with listenTimer := timer }).epochIntake := by
  by_cases adoption : s.node.adoption = .none
  · obtain claim | silent := Bool.eq_false_or_eq_true s.node.listenClaim
    · exact ⟨_, _, _, State.epochStages_of_claimed listen empty adoption claim⟩
    · exact ⟨_, _, _, State.epochStages_of_silent listen empty adoption silent⟩
  · exact ⟨_, _, _, State.epochStages_of_adopted listen empty adoption⟩

/-- The node and the controller of an instant that takes the node from LISTEN to ACTIVE. -/
theorem State.epochInstant_joined {tag : BitVec 8} (listen : s.node.state = .listen)
    (stages : s.epochStages = s.joinedStages tag) :
    s.epochInstant.node = s.node.joined ∧ s.epochInstant.round.tag = tag ∧ s.epochInstant.round.listenTimer = none := by
  obtain ⟨node, round, -⟩ := State.epochInstant_parts (s := s) (by rw [listen]; nofun)
  rw [node, round, stages]
  exact ⟨rfl, rfl, rfl⟩

/-- The instant of a sampling node that joins the line with nothing measured: a POST of NOT-SAMPLED waits, and sampling
begins. -/
theorem State.epochInstant_of_joined {tag : BitVec 8} (listen : s.node.state = .listen)
    (stages : s.epochStages = s.joinedStages tag) (sampling : s.sampling = true) (cond : s.line.cond ≠ .opened)
    (idle : s.sampler.stage = .idle) (finished : s.sampler.finished = none) (result : s.aux.result = none) :
    s.epochInstant.line = { s.line with slot := .waiting (.post
      { source := s.own, tag := tag - 1, group := s.node.straps.group, reading := .notSampled, aux := none,
        alarm := s.groups.alarm }) } ∧
    s.epochInstant.sampler.stage = .excite ∧ s.epochInstant.log = s.log := by
  have started : (s.joinedStages tag).startSampler =
      (s.joinedStages tag).withSampler (s.sampler.start s.handler.store.plan s.handler.store.cal) :=
    State.startSampler_of_idle idle
  have reading : (s.joinedStages tag).sampler.posted = .notSampled := by
    have posted : s.sampler.posted = .notSampled := by simp [Sampler.posted, idle, finished]
    exact posted
  have aux : (s.joinedStages tag).aux.result = none := result
  rw [State.epochInstant_of_posting (by rw [listen]; nofun) (by rw [stages]; rfl) (by rw [stages]; exact sampling)
    (by rw [stages]; exact cond), stages, started, State.startAux_eq, State.instantPost, reading, aux, Option.map_none, ite_self]
  exact ⟨rfl, rfl, rfl⟩

theorem State.epochInstant_of_silent (listen : s.node.state = .listen) (empty : s.line.slot = .empty)
    (adoption : s.node.adoption = .none) (claim : s.node.listenClaim = false) :
    s.epochInstant.node = s.node.countMark ∧
    s.epochInstant.round = { s.round.atInstant s.period s.epochTag with listenTimer := s.listenLoad } ∧
    s.epochInstant.line = s.line ∧ s.epochInstant.log = s.log := by
  have stages := State.epochStages_of_silent listen empty adoption claim
  have state : s.epochStages.node.state = .listen := by
    rw [stages]
    simp only [State.epochIntake, State.node_withTable, State.node_withRound, State.node_withNode, Node.countMark, adoption]
    split <;> exact listen
  have samples : s.epochStages.samples = false := by simp [State.samples, state]
  rw [State.epochInstant_of_no_samples (by rw [listen]; nofun) samples, stages]
  exact ⟨rfl, rfl, rfl, rfl⟩

/-! ### MUTE (R70) -/

theorem State.epochStages_of_mute (mute : s.node.state = .mute) (phase : s.round.phase ≠ .posting)
    (empty : s.line.slot = .empty) :
    (2 ≤ s.round.muteCount.toNat → s.epochStages =
      (s.withRound { s.round.atInstant s.period (s.round.tag + 1) with muteCount := s.round.muteCount - 1 }).epochIntake) ∧
    (s.round.muteCount.toNat ≤ 1 → s.epochStages = ((s.withNode s.node.joined).withRound
      { s.round.atInstant s.period (s.round.tag + 1) with listenTimer := none, muteCount := 0 }).epochIntake) := by
  have closed : s.epochClose = s := State.epochClose_of_empty phase empty
  refine ⟨fun many => ?_, fun last => ?_⟩
  · have counted : s.epochNodeState = s.withRound { s.round with muteCount := s.round.muteCount - 1 } := by
      simp only [State.epochNodeState, mute, if_neg (Nat.not_le.mpr many)]
    have notListen : (s.withRound { s.round with muteCount := s.round.muteCount - 1 }).node.state ≠ .listen := by
      rw [State.node_withRound, mute]
      nofun
    have tag : (s.withRound { s.round with muteCount := s.round.muteCount - 1 }).epochTag = s.round.tag + 1 := by
      rw [State.epochTag, State.node_withRound, mute]
      rfl
    rw [State.epochStages, closed, counted, State.epochRound_of_not_listen notListen, tag]
    rfl
  · have entered : s.epochNodeState = (s.withRound { s.round with muteCount := 0 }).enterActive := by
      simp only [State.epochNodeState, mute, if_pos last]
      rfl
    rw [State.epochStages, closed, entered, State.epochRound_enterActive]
    rfl

/-- An instant of a node that samples starts the sampler with nothing finished. -/
theorem State.epochInstant_starts (notSetup : s.node.state ≠ .setup) (samples : s.epochStages.samples = true) :
    s.epochInstant.sampler.stage = .excite ∧ s.epochInstant.sampler.finished = none := by
  obtain ⟨-, -, -, -, sampler, -⟩ := State.epochInstant_parts notSetup
  obtain ⟨-, excite, finished, -⟩ := s.epochStages.startSampler_eq
  rw [sampler, State.epochMeasure_of_samples samples, State.startAux_eq]
  exact ⟨excite, finished⟩

theorem tag_succ_sub_one (tag : BitVec 8) : tag + 1 - 1 = tag := by bv_omega

end Sys2Proof.Machine

namespace Sys2Proof

open Machine

/-- Settles O17: the six stages in an ACTIVE sampling node, one record of the stage that was overrun. -/
theorem activeInstantPostsAndSamples : Obligations.ActiveInstantPostsAndSamples := by
  intro s first clear cond active sampling phase noAnswer
  have stages := State.epochStages_of_active_or_barred (s := s.withLine (s.line.atMark s.line.slot)) (.inl active) phase
  have notSetup : (s.withLine (s.line.atMark s.line.slot)).node.state ≠ .setup := by
    rw [State.node_withLine, active]
    nofun
  rw [exec_markRecognized_of_no_answer first clear cond noAnswer, State.epochInstant_of_posting notSetup
    (by rw [stages]; exact active) (by rw [stages]; exact sampling) (by rw [stages]; nofun), stages, State.startAux_eq,
    State.instantPost, State.startSampler_overrun]
  simp only [State.round_withRound, State.epochIntake, State.round_withTable, Round.atInstant, tag_succ_sub_one]
  rfl

/-- Settles O18: the stages in BARRED and in an ACTIVE listener, and the instant that a node in SETUP does not take. -/
theorem instantWithoutSampling : Obligations.InstantWithoutSampling := by
  intro s first clear cond noAnswer
  rw [exec_markRecognized_of_no_answer first clear cond noAnswer]
  refine ⟨fun state phase => ?_, fun setup => ?_⟩
  · have either : s.node.state = .active ∨ s.node.state = .barred := state.symm.imp And.left id
    have stages := State.epochStages_of_active_or_barred (s := s.withLine (s.line.atMark s.line.slot)) either phase
    have samples : s.samples = false := by
      rcases state with barred | ⟨-, listener⟩
      · simp [State.samples, barred]
      · simp [State.samples, listener]
    have notSetup : (s.withLine (s.line.atMark s.line.slot)).node.state ≠ .setup := by
      rcases either with e | e <;> rw [State.node_withLine, e] <;> nofun
    rw [State.epochInstant_of_no_samples notSetup (by rw [stages]; exact samples), stages]
    rfl
  · rw [State.epochInstant, if_pos (by exact setup)]
    rfl

/-- Settles O19: the common part from the stages, then the mark after an adoption, after a listen claim, and a silent one. -/
theorem listenInstantJoinsTheLine : Obligations.ListenInstantJoinsTheLine := by
  intro s first clear cond listen empty
  have listen' : (s.withLine (s.line.atMark s.line.slot)).node.state = .listen := listen
  have empty' : (s.withLine (s.line.atMark s.line.slot)).line.slot = .empty := empty
  have notSetup : (s.withLine (s.line.atMark s.line.slot)).node.state ≠ .setup := by rw [listen']; nofun
  have executed := exec_markRecognized_of_no_answer first clear cond (by rw [empty]; rfl)
  obtain ⟨-, round, table, groups, -, -⟩ := State.epochInstant_parts notSetup
  obtain ⟨handler, -⟩ := (s.withLine (s.line.atMark s.line.slot)).epochInstant_frame
  obtain ⟨node, tag, timer, stages⟩ := State.epochStages_of_listen listen' empty'
  have silent (adoption : s.node.adoption = .none) (claim : s.node.listenClaim = false) :=
    State.epochInstant_of_silent listen' empty' adoption claim
  refine ⟨_, executed, ?_, ?_, ?_, ?_, ?_, ?_, ?_, handler, fun adopted => ?_, fun adoption claim => ?_,
    fun joins sampling idle finished auxIdle result => ?_, fun adoption claim marks => ?_, fun adoption claim marks => ?_⟩
  · rw [round, stages]; rfl
  · rw [round, stages]; rfl
  · rw [round, stages]; rfl
  · rw [round, stages]; rfl
  · rw [round, stages]; rfl
  · rw [table, stages]; rfl
  · rw [groups, stages]; rfl
  · exact State.epochInstant_joined listen' (State.epochStages_of_adopted listen' empty' adopted)
  · obtain ⟨node, tag, timer⟩ := State.epochInstant_joined listen'
      (State.epochStages_of_claimed listen' empty' adoption claim)
    refine ⟨node.trans ?_, tag, timer⟩
    rw [State.node_withLine, Node.joined, ← adoption]
  · obtain ⟨tag, stages⟩ : ∃ tag, (s.withLine (s.line.atMark s.line.slot)).epochStages =
        (s.withLine (s.line.atMark s.line.slot)).joinedStages tag := by
      by_cases adoption : s.node.adoption = .none
      · exact ⟨_, State.epochStages_of_claimed listen' empty' adoption (joins.resolve_left fun no => no adoption)⟩
      · exact ⟨_, State.epochStages_of_adopted listen' empty' adoption⟩
    obtain ⟨-, tagged, -⟩ := State.epochInstant_joined listen' stages
    rw [tagged]
    exact State.epochInstant_of_joined listen' stages sampling nofun idle finished result
  · obtain ⟨node, round, line, log⟩ := silent adoption claim
    have counted : s.node.countMark = { s.node with silentMarks := 1 } := by simp [Node.countMark, adoption, marks]
    have tag : s.epochTag = s.round.tag := by simp [State.epochTag, listen, adoption, marks]
    rw [node, round, line, log]
    exact ⟨counted, tag, rfl, congrArg s.line.atMark empty, rfl⟩
  · obtain ⟨node, round, line, log⟩ := silent adoption claim
    have counted : s.node.countMark = { s.node with silentMarks := 2, adoption := .silent } := by
      simp [Node.countMark, adoption, marks]
    have tag : s.epochTag = 0 := by simp [State.epochTag, listen, adoption, marks]
    rw [node, round, line, log]
    exact ⟨counted, tag, rfl, congrArg s.line.atMark empty, rfl⟩

/-- Settles O20: the count-down of MUTE, and the last round, which posts. -/
theorem muteInstantCountsDown : Obligations.MuteInstantCountsDown := by
  intro s first clear cond mute sampling phase empty
  have mute' : (s.withLine (s.line.atMark s.line.slot)).node.state = .mute := mute
  have notSetup : (s.withLine (s.line.atMark s.line.slot)).node.state ≠ .setup := by rw [mute']; nofun
  have executed := exec_markRecognized_of_no_answer first clear cond (by rw [empty]; rfl)
  obtain ⟨node, round, table, -⟩ := State.epochInstant_parts notSetup
  obtain ⟨counting, last⟩ := State.epochStages_of_mute mute' phase empty
  have samples : (s.withLine (s.line.atMark s.line.slot)).epochStages.samples = true := by
    obtain many | one := Nat.lt_or_ge 1 s.round.muteCount.toNat
    · rw [counting many]
      exact State.samples_of_mute_or_active sampling (.inr mute)
    · rw [last one]
      exact State.samples_of_mute_or_active sampling (.inl rfl)
  have kept : (s.withLine (s.line.atMark s.line.slot)).epochStages.round.roundCount = s.round.roundCount + 1 ∧
      (s.withLine (s.line.atMark s.line.slot)).epochStages.round.tag = s.round.tag + 1 ∧
      (s.withLine (s.line.atMark s.line.slot)).epochStages.table = { s.table with intake := [] } := by
    obtain many | one := Nat.lt_or_ge 1 s.round.muteCount.toNat
    · rw [counting many]
      exact ⟨rfl, rfl, rfl⟩
    · rw [last one]
      exact ⟨rfl, rfl, rfl⟩
  obtain ⟨count, tag, intake⟩ := kept
  obtain ⟨excite, finished⟩ := State.epochInstant_starts notSetup samples
  refine ⟨_, executed, by rw [round, count], by rw [round, tag], excite, finished, by rw [table, intake], fun many => ?_,
    fun one => ?_⟩
  · have stages := counting many
    rw [State.epochInstant_line_of_not_active notSetup (by rw [stages]; exact fun active => absurd (mute.symm.trans active) nofun),
      node, round, stages]
    exact ⟨rfl, rfl, congrArg s.line.atMark empty⟩
  · have stages := last (by rw [State.round_withLine, one]; decide)
    rw [State.epochInstant_of_posting notSetup (by rw [stages]; rfl) (by rw [stages]; exact sampling) (by rw [stages]; nofun),
      (State.startSampler_eq _).1, State.startAux_eq, stages]
    exact ⟨rfl, rfl, _, rfl, rfl, tag_succ_sub_one _, rfl⟩

end Sys2Proof
end

section
/-! PROOFS. The station table at a close: the tag vote (R121), the entries' transitions (R124, R125) and the expected sets with
the completeness of a group (R123, R143). -/

namespace Sys2Proof.Machine

/-! ### The tag vote -/

theorem alignedPosts_eq (tag : BitVec 8) (posts : List Post) :
    alignedPosts tag posts = posts.filter fun p => p.tag = tag - 1 := by
  simp only [alignedPosts, Post.aligned, beq_eq_decide]

theorem misalignedPosts_eq (tag : BitVec 8) (posts : List Post) :
    misalignedPosts tag posts = posts.filter fun p => p.tag ≠ tag - 1 := by
  simp only [misalignedPosts, Post.aligned, beq_eq_decide, ne_eq, decide_not]

/-- `a` goes before `b` in a vote: more votes, or as many and no higher a tag (R121). -/
def BeforeInVote (tags : List (BitVec 8)) (a b : BitVec 8) : Prop :=
  tags.count b ≤ tags.count a ∧ (tags.count b = tags.count a → a.toNat ≤ b.toNat)

section
variable {tags : List (BitVec 8)} {a b c : BitVec 8}

theorem BeforeInVote.trans (ab : BeforeInVote tags a b) (bc : BeforeInVote tags b c) : BeforeInVote tags a c := by
  unfold BeforeInVote at *
  omega

theorem BeforeInVote.antisymm (ab : BeforeInVote tags a b) (ba : BeforeInVote tags b a) : a = b := by
  unfold BeforeInVote at ab ba
  exact BitVec.eq_of_toNat_eq (by omega)

theorem betterTag_takes (tags : List (BitVec 8)) (a b : BitVec 8) :
    (betterTag tags a b = a ∨ betterTag tags a b = b) ∧ BeforeInVote tags (betterTag tags a b) a ∧
      BeforeInVote tags (betterTag tags a b) b := by
  unfold betterTag BeforeInVote votes
  split
  · next other =>
    rw [BitVec.lt_def] at other
    exact ⟨.inr rfl, by omega⟩
  · next same =>
    rw [BitVec.lt_def] at same
    exact ⟨.inl rfl, by omega⟩

/-- The most frequent tag of a list that holds one is before every other. -/
theorem mostFrequent_spec (some : tags ≠ []) :
    ∃ t, mostFrequent tags = .some t ∧ t ∈ tags ∧ ∀ u ∈ tags, BeforeInVote tags t u := by
  cases tags with
  | nil => exact absurd rfl some
  | cons t rest =>
    obtain ⟨isMember, before⟩ := foldl_choice (BeforeInVote (t :: rest)) BeforeInVote.trans (betterTag_takes (t :: rest)) t rest
    exact ⟨_, rfl, isMember, before⟩

/-- A tag with a vote is before every tag, in the list or not, when it is before those in it. -/
theorem before_of_before_mem {t : BitVec 8} (voted : 0 < tags.count t) (before : ∀ u ∈ tags, BeforeInVote tags t u) (u : BitVec 8) :
    BeforeInVote tags t u := by
  by_cases isMember : u ∈ tags
  · exact before u isMember
  · have none : tags.count u = 0 := List.count_eq_zero.mpr isMember
    exact ⟨by omega, by omega⟩

theorem mostFrequent_eq_some_iff {t : BitVec 8} (voted : 0 < tags.count t) :
    mostFrequent tags = some t ↔ ∀ u, BeforeInVote tags t u := by
  have isMember : t ∈ tags := List.count_pos_iff.mp voted
  obtain ⟨m, most, mem, before⟩ := mostFrequent_spec (List.ne_nil_of_mem isMember)
  have ahead := before_of_before_mem (List.count_pos_iff.mpr mem) before
  rw [most, Option.some_inj]
  constructor
  · rintro rfl
    exact ahead
  · intro all
    exact (ahead t).antisymm (all m)

end

/-- The vote moves the tag to the successor of the tag most often found wrong (R121). -/
theorem tagVote_eq_some_iff (tag new : BitVec 8) (posts : List Post) :
    tagVote tag posts = some new ↔
      (alignedPosts tag posts).length < ((misalignedPosts tag posts).map (·.tag)).length ∧
      ∃ t : BitVec 8, new = t + 1 ∧ 2 ≤ ((misalignedPosts tag posts).map (·.tag)).count t ∧
        ∀ u, BeforeInVote ((misalignedPosts tag posts).map (·.tag)) t u := by
  unfold tagVote
  generalize (misalignedPosts tag posts).map (·.tag) = wrong
  by_cases more : (alignedPosts tag posts).length < wrong.length
  · have held : wrong ≠ [] := List.ne_nil_of_length_pos (Nat.lt_of_le_of_lt (Nat.zero_le _) more)
    obtain ⟨m, most, mem, before⟩ := mostFrequent_spec held
    simp only [more, if_true, true_and, most]
    constructor
    · intro moved
      split at moved
      · next two =>
        cases moved
        exact ⟨m, rfl, two, before_of_before_mem (List.count_pos_iff.mpr mem) before⟩
      · cases moved
    · rintro ⟨t, rfl, two, all⟩
      have same := (mostFrequent_eq_some_iff (by omega)).mpr all
      rw [most, Option.some_inj] at same
      rw [same]
      exact if_pos two
  · simp only [more, if_false, false_and, reduceCtorEq]

theorem count_misaligned_le (tag t : BitVec 8) (posts : List Post) :
    ((misalignedPosts tag posts).map (·.tag)).count t ≤ (posts.filter fun p => p.tag = t).length := by
  have sub : (misalignedPosts tag posts).Sublist posts := List.filter_sublist
  calc ((misalignedPosts tag posts).map (·.tag)).count t
      ≤ (posts.map (·.tag)).count t := (sub.map _).count_le t
    _ = (posts.filter fun p => p.tag = t).length := by
        rw [List.count, List.countP_map, List.countP_eq_length_filter]
        simp only [Function.comp_def, beq_eq_decide]

/-! ### Expected sets -/

theorem toNat_stationOf (i : Fin 62) : (stationOf i).toNat = i.val + 1 := by
  rw [stationOf, BitVec.toNat_ofNat, Nat.mod_eq_of_lt (by omega)]

theorem stationOf_injective : Function.Injective stationOf := by
  intro i j same
  have := congrArg BitVec.toNat same
  rw [toNat_stationOf, toNat_stationOf] at this
  exact Fin.ext (by omega)

theorem Entry.expectedIn_iff (e : Entry) (g : Fin 8) :
    e.expectedIn g = true ↔ (e.state = .present ∨ e.state = .lapsing) ∧ e.group.toNat = g.val := by
  simp only [Entry.expectedIn, Bool.and_eq_true, Bool.or_eq_true, beq_iff_eq, ← Fin.val_inj]
  rfl

theorem mem_expectedSet {entries : Vector Entry 62} {g : Fin 8} {n : BitVec 6} :
    n ∈ expectedSet entries g ↔ ∃ i : Fin 62, n.toNat = i.val + 1 ∧
      (entries[i].state = .present ∨ entries[i].state = .lapsing) ∧ entries[i].group.toNat = g.val := by
  simp only [expectedSet, List.mem_map, List.mem_filter, List.mem_finRange, true_and, Entry.expectedIn_iff]
  refine exists_congr fun i => ?_
  rw [and_comm, ← BitVec.toNat_inj, toNat_stationOf, eq_comm]

/-- What a post contributes is usable: the reading is GOOD or CLIPPED (R139). -/
theorem Reading.isSome_usable_iff (r : Reading) : r.usable.isSome = true ↔ r.quality = .good ∨ r.quality = .clipped := by
  cases r <;> simp [Reading.usable, Reading.quality]

/-- The stations among the contributors are those of a usable post of the group (R139). -/
theorem mem_contributor_stations {posts : List Post} {g : Fin 8} {n : BitVec 6} :
    (∃ c ∈ contributors posts g, c.1 = n) ↔ ∃ p ∈ posts, p.source = n ∧ p.group.toNat = g.val ∧
      (p.reading.quality = .good ∨ p.reading.quality = .clipped) := by
  have carries (p : Post) : p.group.toFin = g ↔ p.group.toNat = g.val := Fin.ext_iff
  simp only [mem_contributors, ← Reading.isSome_usable_iff, Option.isSome_iff_exists, carries]
  constructor
  · rintro ⟨_, ⟨p, mem, group, v, usable, rfl⟩, source⟩
    exact ⟨p, mem, source, group, v, usable⟩
  · rintro ⟨p, mem, source, group, v, usable⟩
    exact ⟨_, ⟨p, mem, group, v, usable, rfl⟩, source⟩

/-- A group is complete when a station is expected and every expected one contributes (R143). -/
theorem groupComplete_iff (expected : List (BitVec 6)) (cs : List (BitVec 6 × Int)) :
    groupComplete expected cs = true ↔ 1 ≤ expected.length ∧ ∀ n ∈ expected, ∃ c ∈ cs, c.1 = n := by
  rw [groupComplete, Bool.and_eq_true, Bool.not_eq_true', List.isEmpty_eq_false_iff, ← List.length_pos_iff]
  simp only [List.all_eq_true, List.any_eq_true, beq_iff_eq]
  rfl

end Sys2Proof.Machine

namespace Sys2Proof

open Machine

/-- Settles O26: the vote is for the first in the order of the votes, which no aligned post carries. -/
theorem tagVoteTakesMostFrequentTag : Obligations.TagVoteTakesMostFrequentTag := by
  refine ⟨fun tag new posts => ?_, fun tag new posts moved => ?_⟩
  · simp only [← alignedPosts_eq, ← misalignedPosts_eq]
    exact tagVote_eq_some_iff tag new posts
  · obtain ⟨-, t, rfl, two, -⟩ := (tagVote_eq_some_iff tag new posts).mp moved
    have tagOf : t + 1 - 1 = t := tag_succ_sub_one t
    have wrong : t ∈ (misalignedPosts tag posts).map (·.tag) := List.count_pos_iff.mp (by omega)
    rw [misalignedPosts_eq, List.mem_map] at wrong
    obtain ⟨q, mem, rfl⟩ := wrong
    have other : q.tag ≠ tag - 1 := of_decide_eq_true (List.mem_filter.mp mem).2
    refine ⟨fun p _ aligned => ⟨beq_iff_eq.mpr aligned, ?_⟩, ?_⟩
    · rw [Post.aligned, tagOf, aligned, beq_eq_false_iff_ne]
      exact other.symm
    · have enough := two.trans (count_misaligned_le tag q.tag posts)
      simpa only [Post.aligned, tagOf, beq_eq_decide] using enough

/-- Settles O27: the stations of the entries by their state and group, and completeness by their contributions. -/
theorem groupCompleteWhenAllExpectedContribute : Obligations.GroupCompleteWhenAllExpectedContribute := by
  refine ⟨fun entries g => ⟨?_, fun n => mem_expectedSet⟩, fun posts expected roundCount g => ⟨rfl, ?_⟩⟩
  · exact ((List.nodup_finRange 62).filter _).map stationOf_injective
  · refine (groupComplete_iff expected (contributors posts g)).trans ?_
    simp only [mem_contributor_stations]

/-- Settles O28: a transition with a post, and the charge of a close without one, by the entry's state. -/
theorem entriesMoveAtSnapshotClose : Obligations.EntriesMoveAtSnapshotClose := by
  refine ⟨fun e p roundCount lapse => ?_, fun e roundCount lapse low high => ?_⟩
  · refine ⟨?_, rfl, rfl, rfl, rfl, rfl, rfl, rfl, rfl, rfl, rfl, ?_⟩
    · simp only [Entry.close, Entry.take]
      cases e.state <;> rfl
    · simp only [Entry.closeRecord]
      cases e.state <;> rfl
  · refine ⟨fun state => ?_, fun state => ?_, fun state two => ?_, fun state one => ?_, fun state below => ?_,
      fun state limit => ?_, fun state => ?_⟩ <;>
      simp only [Entry.close, Entry.miss, Entry.closeRecord, state, and_self]
    · simp only [if_pos two, and_self]
    · subst one
      exact ⟨rfl, rfl⟩
    · simp only [if_pos below, and_self]
    · simp only [limit, Nat.lt_irrefl, if_false, and_self]

end Sys2Proof
end

section
/-! PROOFS. The posting close and the snapshot close (sections 3.5, 7.3, 7.4 and 8.2 to 8.6): what they read and write, the
records they offer, and their place before a report of an answer and the instant of a mark. -/

namespace Sys2Proof.Machine

variable {s : State}

/-! ### The snapshot close, field by field -/

/-- The station table after a snapshot close (R119, R120). -/
def State.snapshotTable (s : State) : Table :=
  { s.table with
    misaligned := satAdd s.table.misaligned (misalignedPosts s.voted.round.tag s.table.intake).length
    entries := closeEntries s.table.entries s.voted.alignedNow s.round.roundCount s.lapseLimit }

/-- The group cells after a snapshot close (R138). -/
def State.snapshotCells (s : State) : Vector GroupCell 8 :=
  Vector.ofFn fun g => s.groups.cells[g].close (s.handler.store.limit g)
    (groupRecords s.voted.alignedNow s.table.entries s.round.roundCount g)

theorem State.snapshotClose_eq (s : State) : s.snapshotClose =
    ((s.voted.withTable s.snapshotTable).withGroups
      { cells := s.snapshotCells, alarm := alarmCondition s.handler.store s.snapshotCells }).withLog
      (s.log.offerMany s.round.roundCount s.snapshotRecords) := by
  have same : s.snapshotClose = (s.withLog s.log).snapshotClose := rfl
  have voted : s.voteTag = (s.withLog s.log).voteTag := rfl
  rw [same, State.snapshotClose_withLog]
  unfold State.snapshotClose
  simp only [voted, State.voteTag_withLog, State.closeTable_eq, State.closeGroups, State.offerAll_eq]
  rfl

theorem State.snapshotClose_withLine (s : State) (x : Line) : (s.withLine x).snapshotClose = s.snapshotClose.withLine x := by
  rw [State.snapshotClose_eq, State.snapshotClose_eq]
  rfl

/-! ### The posting close -/

theorem NodeState.closes_iff (st : NodeState) : st.closes = true ↔ st.Closes := by
  cases st <;> simp [NodeState.closes, NodeState.Closes]

/-- What the drop of an unsent POST keeps. -/
theorem State.dropUnsentPost_frame (s : State) (cause : CloseCause) :
    (s.dropUnsentPost cause).node = s.node ∧ (s.dropUnsentPost cause).table = s.table ∧
    (s.dropUnsentPost cause).groups = s.groups ∧ (s.dropUnsentPost cause).handler = s.handler ∧
    (s.dropUnsentPost cause).sampler = s.sampler ∧ (s.dropUnsentPost cause).aux = s.aux ∧
    (s.dropUnsentPost cause).round =
      { s.round with postsLost := if s.line.slot.hasPost then satInc s.round.postsLost else s.round.postsLost } ∧
    (s.dropUnsentPost cause).line = { s.line with slot := if s.line.slot.hasPost then .empty else s.line.slot } ∧
    (s.dropUnsentPost cause).log = if s.line.slot.hasPost
      then s.log.offer ⟨.postLost, s.round.roundCount, s.own, cause.detail s.round.roundCount⟩ else s.log := by
  rcases s.dropUnsentPost_cases cause with ⟨post, e⟩ | ⟨post, e⟩ <;> rw [e, post] <;>
    exact ⟨rfl, rfl, rfl, rfl, rfl, rfl, rfl, rfl, rfl⟩

theorem State.postingClose_of_posting (cause : CloseCause) (phase : s.round.phase = .posting) :
    s.postingClose cause = if s.node.state.closes then (s.dropUnsentPost cause).atRequest.snapshotClose
      else (s.dropUnsentPost cause).atRequest := by
  simp only [State.postingClose, if_pos phase, State.judgeDuplicate_eq]
  rfl

/-- After a posting close no posting phase runs. -/
theorem State.phase_postingClose (s : State) (cause : CloseCause) : (s.postingClose cause).round.phase ≠ .posting := by
  by_cases phase : s.round.phase = .posting
  · rw [(State.postingClose_phase_and_line cause phase).1]
    nofun
  · rw [State.postingClose_of_not_posting cause phase]
    exact phase

theorem State.node_postingClose (cause : CloseCause) (phase : s.round.phase = .posting) :
    (s.postingClose cause).node = s.node.judged := by
  obtain ⟨node, -⟩ := s.dropUnsentPost_frame cause
  rw [State.postingClose_of_posting cause phase]
  split
  · rw [State.snapshotClose_node, State.atRequest, node]
    rfl
  · rw [State.atRequest, node]
    rfl

theorem State.postsLost_postingClose (cause : CloseCause) (phase : s.round.phase = .posting) :
    (s.postingClose cause).round.postsLost = if s.line.slot.hasPost then satInc s.round.postsLost else s.round.postsLost := by
  obtain ⟨-, -, -, -, -, -, round, -⟩ := s.dropUnsentPost_frame cause
  rw [State.postingClose_of_posting cause phase]
  split
  · rw [State.snapshotClose_round, State.atRequest, round]
    rfl
  · rw [State.atRequest, round]
    rfl

/-! ### Records in the log -/

theorem EventLog.offerMany_eq_foldl (l : EventLog) (count : BitVec 16) (rs : List (EventKind × BitVec 6 × BitVec 8)) :
    l.offerMany count rs = (rs.map fun r => EventRecord.mk r.1 count r.2.1 r.2.2).foldl EventLog.offer l := by
  rw [EventLog.offerMany, List.foldl_map]

/-- The log `l` with records offered after it. -/
def EventLog.Follows (l later : EventLog) : Prop := ∃ records : List EventRecord, later = records.foldl EventLog.offer l

section
variable {l l' l'' : EventLog}

theorem EventLog.Follows.refl (l : EventLog) : l.Follows l := ⟨[], rfl⟩

theorem EventLog.Follows.offer (l : EventLog) (r : EventRecord) : l.Follows (l.offer r) := ⟨[r], rfl⟩

theorem EventLog.Follows.trans (first : l.Follows l') (second : l'.Follows l'') : l.Follows l'' := by
  obtain ⟨as, rfl⟩ := first
  obtain ⟨bs, rfl⟩ := second
  exact ⟨as ++ bs, (List.foldl_append ..).symm⟩

theorem EventLog.Follows.offerMany (l : EventLog) (count : BitVec 16) (rs : List (EventKind × BitVec 6 × BitVec 8)) :
    l.Follows (l.offerMany count rs) := ⟨_, l.offerMany_eq_foldl count rs⟩

end

/-- After the drop of its POST a posting close offers the records of its snapshot close. -/
theorem State.follows_log_postingClose (cause : CloseCause) (phase : s.round.phase = .posting) :
    (s.dropUnsentPost cause).log.Follows (s.postingClose cause).log := by
  rw [State.postingClose_of_posting cause phase]
  split
  · rw [State.snapshotClose_log]
    exact .offerMany _ _ _
  · exact .refl _

/-- After its close an instant offers the record of an overrun at most. -/
theorem State.follows_log_epochInstant (notSetup : s.node.state ≠ .setup) :
    s.epochClose.log.Follows s.epochInstant.log := by
  obtain ⟨-, -, -, -, -, log⟩ := State.epochInstant_parts notSetup
  have staged : s.epochStages.log = s.epochClose.log := by
    rw [State.epochStages, State.epochIntake, (State.epochRound_eq _).1, (State.epochNodeState_eq _).1]
    rfl
  rw [log, ← staged]
  unfold State.epochMeasure
  split
  · rw [State.startAux_eq, State.startSampler_overrun]
    show s.epochStages.log.Follows s.epochStages.overrunLog
    unfold State.overrunLog
    cases s.epochStages.sampler.stage with
    | idle => exact .refl _
    | excite | settle | count => exact .offer _ _
  · exact .refl _

theorem State.postsLost_epochNodeState (s : State) : s.epochNodeState.round.postsLost = s.round.postsLost := by
  unfold State.epochNodeState
  cases s.node.state with
  | listen =>
    dsimp only
    cases s.node.adoption with
    | none =>
      dsimp only
      split <;> rfl
    | silent | posted => rfl
  | mute =>
    dsimp only
    split <;> rfl
  | setup | active | barred => rfl

theorem State.postsLost_epochInstant (notSetup : s.node.state ≠ .setup) :
    s.epochInstant.round.postsLost = s.epochClose.round.postsLost := by
  obtain ⟨-, round, -⟩ := State.epochInstant_parts notSetup
  rw [round]
  exact s.epochClose.postsLost_epochNodeState

theorem Slot.hasPost_of_post {x : Slot} {p : Post} (post : x.post = some p) : x.hasPost = true ∧ x.hasAnswer = false := by
  cases x with
  | empty => cases post
  | waiting f | sending f =>
    cases f with
    | post p => exact ⟨rfl, rfl⟩
    | answer a => cases post

/-! ### The close before the instant (R53) -/

/-- Of the line a posting close reads the slot alone, and writes nothing else of it. -/
theorem State.postingClose_withLine (x : Line) (cause : CloseCause) (slot : x.slot = s.line.slot)
    (phase : s.round.phase = .posting) : (s.withLine x).postingClose cause =
      (s.postingClose cause).withLine { x with slot := if s.line.slot.hasPost then .empty else s.line.slot } := by
  have dropped : (s.withLine x).dropUnsentPost cause =
      (s.dropUnsentPost cause).withLine { x with slot := if s.line.slot.hasPost then .empty else s.line.slot } := by
    unfold State.dropUnsentPost
    rw [State.line_withLine, slot]
    cases s.line.slot.hasPost
    · rw [if_neg Bool.false_ne_true, if_neg Bool.false_ne_true, if_neg Bool.false_ne_true, ← slot]
    · rfl
  have requested (u : State) (y : Line) : (u.withLine y).atRequest = u.atRequest.withLine y := rfl
  rw [State.postingClose_of_posting (s := s.withLine x) cause phase, State.postingClose_of_posting cause phase, dropped,
    State.node_withLine, requested, State.snapshotClose_withLine]
  split <;> rfl

/-- The close of a posting phase by a mark, made before the mark: the first stage of the instant finds it done. -/
theorem State.epochClose_postingClose (s : State) : (s.postingClose .mark).epochClose = s.epochClose := by
  rw [State.epochClose_of_not_posting (s.phase_postingClose .mark), State.epochClose_eq]

/-- An instant reads what its first stage leaves. -/
theorem State.epochInstant_congr {t : State} (notSetup : s.node.state ≠ .setup) (notSetup' : t.node.state ≠ .setup)
    (closed : s.epochClose = t.epochClose) : s.epochInstant = t.epochInstant := by
  rw [State.epochInstant_of_not_setup notSetup, State.epochInstant_of_not_setup notSetup', State.epochStages,
    State.epochStages, closed]

theorem State.state_postingClose (s : State) (cause : CloseCause) : (s.postingClose cause).node.state = s.node.state := by
  obtain ⟨-, -, -, -, -, state, -⟩ := s.postingClose_frame cause
  exact state

/-- The close made before the mark changes nothing of the instant (R53). -/
theorem State.epochInstant_postingClose (notSetup : s.node.state ≠ .setup) :
    (s.postingClose .mark).epochInstant = s.epochInstant :=
  State.epochInstant_congr (by rw [State.state_postingClose]; exact notSetup) notSetup s.epochClose_postingClose

theorem Node.judged_fields (n : Node) : n.judged =
    { n with dupSuspect := n.judged.dupSuspect, collisionNote := n.judged.collisionNote } := by
  unfold Node.judged
  split <;> rfl

section
variable (empty : s.line.slot = .empty) (phase : s.round.phase = .posting)
include empty phase

theorem State.postingClose_of_empty (cause : CloseCause) : s.postingClose cause =
    if s.node.state.closes then s.atRequest.snapshotClose else s.atRequest := by
  rw [State.postingClose_of_no_post cause (by rw [empty]; rfl), if_pos phase]

theorem State.muteEntry_postingClose (n : BitVec 8) (active : s.node.state = .active) :
    (s.muteEntry n).postingClose .mark = (s.postingClose .mark).muteEntry n := by
  rw [State.postingClose_of_empty (s := s.muteEntry n) rfl phase, State.postingClose_of_empty empty phase, active,
    State.snapshotClose_eq, State.snapshotClose_eq, State.atRequest, State.atRequest, s.node.judged_fields]
  rfl

theorem State.muteCount_postingClose (n : BitVec 8) :
    (s.withRound { s.round with muteCount := n }).postingClose .mark =
      (s.postingClose .mark).withRound { (s.postingClose .mark).round with muteCount := n } := by
  rw [State.postingClose_of_empty (s := s.withRound { s.round with muteCount := n }) empty phase,
    State.postingClose_of_empty empty phase, State.node_withRound]
  split
  · rw [State.snapshotClose_eq, State.snapshotClose_eq]
    rfl
  · rfl

theorem State.restartEffect_postingClose : s.restartEffect.postingClose .mark = (s.postingClose .mark).restartEffect := by
  rw [State.postingClose_of_not_posting (s := s.restartEffect) _ nofun, State.postingClose_of_empty empty phase]
  split
  · rw [State.snapshotClose_eq, State.atRequest, s.node.judged_fields]
    rfl
  · rw [State.atRequest, s.node.judged_fields]
    rfl

/-- An effect and the close of the posting phase by a mark, in either order. -/
theorem State.carryOut_postingClose (effect : Awaited) (notSetup : s.node.state ≠ .setup) :
    (s.carryOut effect).postingClose .mark = (s.postingClose .mark).carryOut effect := by
  have state := s.state_postingClose .mark
  cases effect with
  | none => rfl
  | quiet n =>
    unfold State.carryOut
    rw [state]
    cases active : s.node.state with
    | active => exact State.muteEntry_postingClose empty phase n active
    | mute => exact State.muteCount_postingClose empty phase n
    | setup | listen | barred => rfl
  | restart =>
    rw [State.carryOut_restart, State.carryOut_restart, state]
    split
    · exact State.restartEffect_postingClose empty phase
    · rfl
  | closeSetup =>
    unfold State.carryOut
    rw [state]
    cases setup : s.node.state with
    | setup => exact absurd setup notSetup
    | listen | active | mute | barred => rfl

end

end Sys2Proof.Machine
end

section
/-! PROOFS. The posting close settled: an unsent POST, the tables after a close, the order of its records, the close at a quiet
and before a mark, and the evidence of a duplicate. -/

namespace Sys2Proof.Machine

variable {s : State}

theorem postOf_eq (posts : List Post) (i : Fin 62) :
    postOf posts (stationOf i) = posts.find? fun p => p.source = BitVec.ofNat 6 (i.val + 1) := by
  simp only [postOf, stationOf, beq_eq_decide]

/-- The drop of a POST, the duplicate judgment and the phase are nothing to the snapshot close. -/
theorem State.snapshot_of_atRequest (s : State) (cause : CloseCause) :
    (s.dropUnsentPost cause).atRequest.snapshotTable = s.snapshotTable ∧
    (s.dropUnsentPost cause).atRequest.snapshotCells = s.snapshotCells ∧
    (s.dropUnsentPost cause).atRequest.snapshotRecords = s.snapshotRecords := by
  rcases s.dropUnsentPost_cases cause with ⟨_, e⟩ | ⟨_, e⟩ <;> rw [e] <;> exact ⟨rfl, rfl, rfl⟩

theorem State.log_dropUnsentPost (cause : CloseCause) (post : s.line.slot.hasPost = true) :
    (s.dropUnsentPost cause).log = s.log.offer ⟨.postLost, s.round.roundCount, s.own, cause.detail s.round.roundCount⟩ := by
  obtain ⟨-, -, -, -, -, -, -, -, log⟩ := s.dropUnsentPost_frame cause
  rw [log, if_pos post]

/-- What a posting close with a snapshot close writes. -/
theorem State.postingClose_of_closes (cause : CloseCause) (phase : s.round.phase = .posting)
    (closes : s.node.state.closes = true) :
    (s.postingClose cause).table = s.snapshotTable ∧
    (s.postingClose cause).groups = { cells := s.snapshotCells, alarm := alarmCondition s.handler.store s.snapshotCells } ∧
    (s.postingClose cause).round.tag = (tagVote s.round.tag s.table.intake).getD s.round.tag ∧
    (s.postingClose cause).log =
      (s.dropUnsentPost cause).log.offerMany s.round.roundCount s.snapshotRecords := by
  obtain ⟨table, cells, records⟩ := s.snapshot_of_atRequest cause
  obtain ⟨-, intake, -, handler, -, -, round, -⟩ := s.dropUnsentPost_frame cause
  have handler' : (s.dropUnsentPost cause).atRequest.handler = s.handler := handler
  have intake' : (s.dropUnsentPost cause).atRequest.table = s.table := intake
  have tag : (s.dropUnsentPost cause).atRequest.round.tag = s.round.tag := by rw [State.atRequest, round]; rfl
  have count : (s.dropUnsentPost cause).atRequest.round.roundCount = s.round.roundCount := by rw [State.atRequest, round]; rfl
  rw [State.postingClose_of_posting cause phase, if_pos closes, State.snapshotClose_eq, table, cells, records, handler', count]
  refine ⟨rfl, rfl, ?_, rfl⟩
  show (tagVote (s.dropUnsentPost cause).atRequest.round.tag (s.dropUnsentPost cause).atRequest.table.intake).getD
    (s.dropUnsentPost cause).atRequest.round.tag = _
  rw [tag, intake']

theorem State.getElem_snapshotCells (s : State) (g : Fin 8) : s.snapshotCells[g] =
    s.groups.cells[g].close (s.handler.store.limit g)
      (groupRecords s.voted.alignedNow s.table.entries s.round.roundCount g) := by
  simp [State.snapshotCells]

theorem alarmCondition_iff (store : Store) (cells : Vector GroupCell 8) : alarmCondition store cells = true ↔
    ∃ g : Fin 8, (store.limit g).watched = true ∧ (cells[g].limit ≠ .normal ∨
      ((store.limit g).rounds ≠ 0#4 ∧ (store.limit g).rounds.toNat ≤ cells[g].run.toNat)) := by
  simp only [alarmCondition, List.any_eq_true, List.mem_finRange, true_and, GroupCell.alarms, Bool.and_eq_true,
    Bool.or_eq_true, bne_iff_ne, decide_eq_true_eq, ne_eq]

/-! ### The mark after the close (R53) -/

/-- A recognized mark that gives up an ANSWER, its report taken before the instant. -/
theorem exec_markRecognized_answerReport (clear : s.node.resetHeld = false) (cond : s.line.cond = .longHold)
    (answer : s.line.slot.hasAnswer = true) :
    exec (.markRecognized .answerReport) s = .next (s.withLine s.line.recognize).answerEnded.epochInstant := by
  simp only [exec, execMarkRecognized, next_of_guard clear cond, answer, if_true]

/-- A recognized mark that gives up an ANSWER, its report taken after the instant. -/
theorem exec_markRecognized_otherReport (clear : s.node.resetHeld = false) (cond : s.line.cond = .longHold)
    (answer : s.line.slot.hasAnswer = true) :
    exec (.markRecognized .otherReport) s = .next (s.withLine s.line.recognize).epochInstant.answerEnded := by
  simp only [exec, execMarkRecognized, next_of_guard clear cond, answer, if_true]

theorem State.epochClose_withLine_of_not_posting (x : Line) (phase : s.round.phase ≠ .posting) :
    (s.withLine x).epochClose = s.withLine { x with slot := .empty } :=
  State.epochClose_of_not_posting (s := s.withLine x) phase

/-- Without a POST in the slot a posting close reads nothing of the line. -/
theorem State.postingClose_withLine_of_no_post (x : Line) (cause : CloseCause) (before : s.line.slot.hasPost = false)
    (after : x.slot.hasPost = false) : (s.withLine x).postingClose cause = (s.postingClose cause).withLine x := by
  have requested : (s.withLine x).atRequest = s.atRequest.withLine x := rfl
  rw [State.postingClose_of_no_post (s := s.withLine x) cause after, State.postingClose_of_no_post cause before, requested,
    State.snapshotClose_withLine, State.node_withLine, State.round_withLine]
  split
  · split <;> rfl
  · rfl

/-- An answer's end and the close of the posting phase by a mark, in either order. -/
theorem State.answerEnded_postingClose (empty : s.line.slot = .empty) (phase : s.round.phase = .posting)
    (notSetup : s.node.state ≠ .setup) : s.answerEnded.postingClose .mark = (s.postingClose .mark).answerEnded := by
  have cleared (h : Handler) (store : h.store = s.handler.store) :
      (s.withHandler h).postingClose .mark = (s.postingClose .mark).withHandler h := by
    have snapshot : (s.withHandler h).atRequest.snapshotClose = s.atRequest.snapshotClose.withHandler h := by
      rw [State.snapshotClose_eq, State.snapshotClose_eq, State.snapshotTable, State.snapshotCells, State.snapshotRecords,
        State.lapseLimit]
      simp only [State.atRequest, State.handler_withRound, State.handler_withNode, State.handler_withHandler, store]
      rfl
    rw [State.postingClose_of_empty (s := s.withHandler h) empty phase, State.postingClose_of_empty empty phase, snapshot,
      State.node_withHandler]
    split <;> rfl
  obtain ⟨-, -, -, handler, -⟩ := s.postingClose_frame .mark
  rw [State.answerEnded, State.answerEnded, handler,
    State.carryOut_postingClose (s := s.withHandler { s.handler with awaited := .none }) empty phase _ notSetup,
    cleared { s.handler with awaited := .none } rfl]

/-- The drop is the first stage of the close, whatever causes the rest of it. -/
theorem State.postingClose_dropUnsentPost (cause cause' : CloseCause) (phase : s.round.phase = .posting) :
    (s.dropUnsentPost cause).postingClose cause' = s.postingClose cause := by
  obtain ⟨node, -, -, -, -, -, round, line, -⟩ := s.dropUnsentPost_frame cause
  have noPost : (s.dropUnsentPost cause).line.slot.hasPost = false := by
    rw [line]
    cases post : s.line.slot.hasPost
    · exact post
    · rfl
  have phase' : (s.dropUnsentPost cause).round.phase = .posting := by rw [round]; exact phase
  rw [State.postingClose_of_no_post cause' noPost, if_pos phase', State.postingClose_of_posting cause phase, node]

/-- The state after the drop of the close by a mark, with the line in FRAME. -/
theorem State.dropUnsentPost_withFrame (s : State) :
    (s.dropUnsentPost .mark).withLine { (s.dropUnsentPost .mark).line with cond := .frame } =
      { s with
        line := { s.line with cond := .frame, slot := if s.line.slot.hasPost then .empty else s.line.slot }
        round := { s.round with postsLost := if s.line.slot.hasPost then satInc s.round.postsLost else s.round.postsLost }
        log := if s.line.slot.hasPost then s.log.offer ⟨.postLost, s.round.roundCount, s.own, 2⟩ else s.log } := by
  rcases s.dropUnsentPost_cases .mark with ⟨post, e⟩ | ⟨post, e⟩ <;> rw [e, post] <;> rfl

/-- The first octet that finds the drop of a mark's close done closes as the mark does. -/
theorem exec_firstOctetComplete_of_unsent {octet : Byte} (clear : s.node.resetHeld = false) (phase : s.round.phase = .posting)
    (low : 64 ≤ octet.toNat) (high : octet.toNat < 192) :
    exec (.firstOctetComplete octet)
      { s with
        line := { s.line with cond := .frame, slot := if s.line.slot.hasPost then .empty else s.line.slot }
        round := { s.round with postsLost := if s.line.slot.hasPost then satInc s.round.postsLost else s.round.postsLost }
        log := if s.line.slot.hasPost then s.log.offer ⟨.postLost, s.round.roundCount, s.own, 2⟩ else s.log } =
      .next ((s.postingClose .mark).withLine { (s.postingClose .mark).line with cond := .frame }) := by
  obtain ⟨-, line⟩ := State.postingClose_phase_and_line .mark phase
  obtain ⟨node, -, -, -, -, -, -, line', -⟩ := s.dropUnsentPost_frame .mark
  have noPost : (s.dropUnsentPost .mark).line.slot.hasPost = false := by
    rw [line']
    cases post : s.line.slot.hasPost
    · exact post
    · rfl
  have hears (x : Line) (frame : x.cond = .frame) : ((s.dropUnsentPost .mark).withLine x).Hearing := by
    rw [State.Hearing, State.node_withLine, node]
    exact ⟨clear, frame⟩
  rw [← State.dropUnsentPost_withFrame, exec_firstOctetComplete_of_closes (hears _ rfl) low high,
    State.postingClose_withLine_of_no_post { (s.dropUnsentPost .mark).line with cond := .frame } _ noPost noPost,
    State.postingClose_dropUnsentPost _ _ phase, line, line']

theorem Slot.hasPost_of_answer {x : Slot} (answer : x.hasAnswer = true) : x.hasPost = false := by
  cases x with
  | empty => rfl
  | waiting f | sending f =>
    cases f with
    | post p => cases answer
    | answer a => rfl

section
variable (notSetup : s.node.state ≠ .setup)
include notSetup

theorem State.carryOut_ne_setup (effect : Awaited) : (s.carryOut effect).node.state ≠ .setup := by
  obtain ⟨-, -, -, -, state⟩ := s.carryOut_frame effect
  rcases state with same | mute | listen
  · rw [same]; exact notSetup
  · rw [mute]; nofun
  · rw [listen]; nofun

end

/-- A mark recognized in POSTING is the mark recognized after the close that it makes, the report of an answer before the
instant or after it. -/
theorem exec_markRecognized_after_close (first : TakenFirst) (clear : s.node.resetHeld = false)
    (cond : s.line.cond = .longHold) (notSetup : s.node.state ≠ .setup) (phase : s.round.phase = .posting) :
    exec (.markRecognized first) s = exec (.markRecognized first) (s.postingClose .mark) := by
  obtain ⟨-, line⟩ := State.postingClose_phase_and_line .mark phase
  have state := s.state_postingClose .mark
  have clear' : (s.postingClose .mark).node.resetHeld = false := by
    rw [State.node_postingClose _ phase, Node.judged_fields]
    exact clear
  have cond' : (s.postingClose .mark).line.cond = .longHold := by
    rw [line]
    exact cond
  cases answer : s.line.slot.hasAnswer with
  | false =>
    have answer' : (s.postingClose .mark).line.slot.hasAnswer = false := by
      rw [line]
      simp only
      split
      · rfl
      · exact answer
    rw [exec_markRecognized_of_no_answer first clear cond answer,
      exec_markRecognized_of_no_answer first clear' cond' answer']
    have closed := State.postingClose_withLine (s.line.atMark s.line.slot) .mark rfl phase
    refine congrArg _ (State.epochInstant_congr notSetup (by rw [State.node_withLine, state]; exact notSetup) ?_)
    rw [State.epochClose_eq, closed, State.epochClose_withLine_of_not_posting _ (s.phase_postingClose .mark), line]
    rfl
  | true =>
    have noPost := Slot.hasPost_of_answer answer
    have line' : (s.postingClose .mark).line = s.line := by rw [line, noPost]; rfl
    have answer' : (s.postingClose .mark).line.slot.hasAnswer = true := by rw [line']; exact answer
    have empty : s.line.recognize.slot = .empty := by rw [Line.recognize_slot, if_pos answer]
    have closed := State.postingClose_withLine_of_no_post s.line.recognize .mark noPost (by rw [empty]; rfl)
    have ended := State.answerEnded_postingClose (s := s.withLine s.line.recognize) empty phase notSetup
    cases first with
    | answerReport =>
      have stays : (s.withLine s.line.recognize).answerEnded.node.state ≠ .setup :=
        State.carryOut_ne_setup (s := (s.withLine s.line.recognize).withHandler _) notSetup _
      rw [exec_markRecognized_answerReport clear cond answer, exec_markRecognized_answerReport clear' cond' answer', line',
        ← closed, ← ended, State.epochInstant_postingClose stays]
    | otherReport =>
      rw [exec_markRecognized_otherReport clear cond answer, exec_markRecognized_otherReport clear' cond' answer', line',
        ← closed, State.epochInstant_postingClose (s := s.withLine s.line.recognize) notSetup]

end Sys2Proof.Machine

namespace Sys2Proof

open Machine

/-- Settles O21: the drop with its record comes first, and what a close and an instant offer comes after it. -/
theorem unsentPostIsLost : Obligations.UnsentPostIsLost := by
  intro s p clear phase post
  obtain ⟨hasPost, noAnswer⟩ := Slot.hasPost_of_post post
  refine ⟨fun octet cond low high => ?_, fun first cond notSetup => ?_⟩
  · obtain ⟨-, line⟩ := State.postingClose_phase_and_line .firstOctet phase
    have lost := State.postsLost_postingClose .firstOctet phase
    obtain ⟨records, later⟩ := State.follows_log_postingClose .firstOctet phase
    rw [State.log_dropUnsentPost _ hasPost] at later
    rw [hasPost] at line lost
    exact ⟨_, exec_firstOctetComplete_of_closes ⟨clear, cond⟩ low high, by rw [line]; rfl, lost, records, later⟩
  · have closing := State.postsLost_postingClose (s := s.withLine (s.line.atMark s.line.slot)) .mark phase
    have lost := State.postsLost_epochInstant (s := s.withLine (s.line.atMark s.line.slot)) notSetup
    obtain ⟨-, -, -, -, counts, -⟩ := (s.withLine (s.line.atMark s.line.slot)).epochInstant_frame
    have offered := State.follows_log_postingClose (s := s.withLine (s.line.atMark s.line.slot)) .mark phase
    rw [State.log_dropUnsentPost (s := s.withLine (s.line.atMark s.line.slot)) _ hasPost] at offered
    obtain ⟨records, later⟩ := offered.trans
      (State.follows_log_epochInstant (s := s.withLine (s.line.atMark s.line.slot)) notSetup)
    refine ⟨_, exec_markRecognized_of_no_answer first clear cond noAnswer, lost.trans (closing.trans ?_), (counts notSetup).1,
      records, later⟩
    rw [State.line_withLine, if_pos (by exact hasPost)]
    rfl

/-- Settles O22: the fields that the close writes, and the mark that finds it done. -/
theorem snapshotCloseBringsTablesUpToDate : Obligations.SnapshotCloseBringsTablesUpToDate := by
  refine ⟨fun s octet hears phase low high closes => ?_, fun s first octet clear cond notSetup phase low high => ?_⟩
  · obtain ⟨table, groups, tag, -⟩ := State.postingClose_of_closes .firstOctet phase ((NodeState.closes_iff _).mpr closes)
    obtain ⟨-, sampler, aux, handler, -, state, -, count, -⟩ := s.postingClose_frame .firstOctet
    refine ⟨_, exec_firstOctetComplete_of_closes hears low high, ?_⟩
    intro tag' aligned wrong
    have alignedNow : s.voted.alignedNow = aligned := by
      rw [State.alignedNow, alignedPosts_eq]
      rfl
    have misaligned : misalignedPosts s.voted.round.tag s.table.intake = wrong := misalignedPosts_eq _ _
    rw [State.snapshotTable, alignedNow, misaligned] at table
    rw [table, groups]
    refine ⟨tag, count, rfl, rfl, fun i => ?_, fun g => ?_, alarmCondition_iff _ _, sampler, aux, handler, state⟩
    · exact (getElem_closeEntries _ _ _ _ i).trans (by rw [postOf_eq]; rfl)
    · rw [State.getElem_snapshotCells, alignedNow]
      exact ⟨rfl, rfl, rfl⟩
  · intro unsent
    obtain ⟨request, line⟩ := State.postingClose_phase_and_line .mark phase
    have held : (s.postingClose .mark).line.cond = .longHold := by
      rw [line]
      exact cond
    have same : { (s.postingClose .mark).line with cond := .longHold } = (s.postingClose .mark).line := by rw [← held]
    refine ⟨(s.postingClose .mark).withLine { (s.postingClose .mark).line with cond := .frame }, request,
      exec_firstOctetComplete_of_unsent clear phase low high, ?_⟩
    rw [exec_markRecognized_after_close first clear cond notSetup phase]
    refine congrArg (exec (.markRecognized first)) ?_
    show s.postingClose .mark = (s.postingClose .mark).withLine { (s.postingClose .mark).line with cond := .longHold }
    rw [same]
    rfl

/-- Settles O23: the record of the drop, then those of the snapshot close. -/
theorem closeRecordsReachLogInOrder : Obligations.CloseRecordsReachLogInOrder := by
  intro s octet hears phase low high closes
  refine ⟨_, exec_firstOctetComplete_of_closes hears low high, ?_⟩
  intro tag aligned lapse lost slip stations groups
  obtain ⟨-, cells, -, log⟩ := State.postingClose_of_closes .firstOctet phase ((NodeState.closes_iff _).mpr closes)
  obtain ⟨-, -, -, -, -, -, -, -, dropped⟩ := s.dropUnsentPost_frame .firstOctet
  have alignedNow : s.voted.alignedNow = aligned := by
    rw [State.alignedNow, alignedPosts_eq]
    rfl
  have slipped : s.slipRecord = slip := rfl
  have listed : stationRecords s.table.entries aligned lapse = stations := by
    simp only [stationRecords, postOf_eq]
    rfl
  have events : ((List.finRange 8).filterMap fun g => groupEvent (s.handler.store.limit g)
      (groupRecords aligned s.table.entries s.round.roundCount g) s.groups.cells[g] g) = groups := by
    simp only [groups, cells, State.getElem_snapshotCells, alignedNow]
    rfl
  have first : (s.dropUnsentPost .firstOctet).log = s.log.offerMany s.round.roundCount lost := by
    rw [dropped]
    simp only [lost]
    split <;> rfl
  have lapseLimit : s.lapseLimit = lapse := rfl
  rw [log, first, State.snapshotRecords, alignedNow, slipped, lapseLimit, listed, events]
  simp only [EventLog.offerMany, List.foldl_append]

/-- Settles O25: the judgment at a close, and the collision that finds the flag set. -/
theorem secondCollisionBarsNode : Obligations.SecondCollisionBarsNode := by
  refine ⟨fun s octet hears phase low high => ⟨_, exec_firstOctetComplete_of_closes hears low high,
    State.node_postingClose _ phase⟩, fun s first p clear active run sending suspect => ?_⟩
  have next : min 8 (s.line.txRun + 1) = s.line.txRun + 1 := by omega
  simp only [exec, execCollision, State.unlessReset_of_clear _ clear, sending, suspect, if_true, State.countRun_enterBarred, active,
    next]
  rfl

end Sys2Proof
end

section
/-! PROOFS. The quiet for the phase gap (R7, R12, R43, R51): its three parts touch different fields, and each offers its records
to the log that it finds. -/

namespace Sys2Proof.Machine

variable {s : State}

/-! ### The parts of the quiet, by the fields that they read -/

section
variable (x : Line) (r : Round) (l : EventLog)

theorem State.quietLine_moved : (((s.withLine x).withRound r).withLog l).quietLine =
    ((s.withLine { x with fault := false }).withRound r).withLog
      ((if x.fault then [⟨.lineReleased, r.roundCount, 0, 0⟩] else []).foldl EventLog.offer l) := by
  obtain fault | fault := Bool.eq_false_or_eq_true x.fault
  · have set : (((s.withLine x).withRound r).withLog l).line.fault = true := fault
    rw [State.quietLine, if_pos set, if_pos fault]
    rfl
  · have same : { x with fault := false } = x := by rw [← fault]
    have clear : ¬ (((s.withLine x).withRound r).withLog l).line.fault = true := ne_true_of_eq_false fault
    rw [State.quietLine, if_neg clear, if_neg (ne_true_of_eq_false fault), same]
    rfl

theorem State.quietOwed_unmoved (owed : r.owed = none) :
    (((s.withLine x).withRound r).withLog l).quietOwed = ((s.withLine x).withRound r).withLog l :=
  State.quietOwed_of_none owed

theorem State.quietOwed_moved {cause : OwedCause} (owed : r.owed = some cause) :
    (((s.withLine x).withRound r).withLog l).quietOwed =
      ((s.withLine x.originate).withRound { r with
        owed := none
        marksOriginated := satInc r.marksOriginated
        marksDeferred := satInc r.marksDeferred }).withLog
      (l.offer { kind := .markDeferred, roundCount := r.roundCount, station := 0, detail := cause.code }) := by
  simp only [State.quietOwed, State.round_withLog, State.round_withRound, owed]
  rfl

theorem State.quietClose_moved (noPost : s.line.slot.hasPost = false) (slot : x.slot.hasPost = false)
    (tag : r.tag = s.round.tag) (count : r.roundCount = s.round.roundCount) (phase : r.phase = s.round.phase) :
    (((s.withLine x).withRound r).withLog l).quietClose =
      (((s.postingClose .quiet).withLine x).withRound
        { r with tag := (s.postingClose .quiet).round.tag, phase := (s.postingClose .quiet).round.phase }).withLog
        ((s.closeRecords.map fun r => EventRecord.mk r.1 s.round.roundCount r.2.1 r.2.2).foldl EventLog.offer l) := by
  rw [← EventLog.offerMany_eq_foldl]
  exact State.postingClose_withLine_withRound_withLog s x r l .quiet .quiet slot noPost tag count phase

end

/-- The state as its own parts. -/
theorem State.withParts_self (s : State) (x : Line) :
    s.withLine x = ((s.withLine x).withRound s.round).withLog s.log := rfl

end Sys2Proof.Machine

namespace Sys2Proof

open Machine

/-- Settles O24: the parts in each of the six orders. -/
theorem quietClosesAsFirstOctetDoes : Obligations.QuietClosesAsFirstOctetDoes := by
  intro s octet clear cond window noPost low high
  refine ⟨((s.postingClose .quiet).withLine { s.line with cond := .frame }).withRound
    { s.round with tag := (s.postingClose .quiet).round.tag, phase := (s.postingClose .quiet).round.phase },
    s.closeRecords.map fun r => EventRecord.mk r.1 s.round.roundCount r.2.1 r.2.2, fun l => ?_, fun order => ?_⟩
  · have executed := exec_firstOctetComplete_of_closes
      (s := ((s.withLine { s.line with cond := .frame }).withRound s.round).withLog l) ⟨clear, rfl⟩ low high
    rw [State.postingClose_withLine_withRound_withLog s { s.line with cond := .frame } s.round l .firstOctet .quiet noPost noPost
      rfl rfl rfl, EventLog.offerMany_eq_foldl] at executed
    exact executed
  · intro line owed records
    rw [exec_quietForPhaseGap order clear cond window, State.withParts_self]
    cases cause : s.round.owed with
    | none =>
      have silent : owed = [] := by simp only [owed, cause]
      cases order <;>
        simp only [State.quietParts, State.quietLine_moved, State.quietOwed_unmoved, State.quietClose_moved, cause, noPost,
          records, silent, List.append_nil, List.nil_append, List.foldl_append] <;>
        rfl
    | some cause' =>
      have deferred : owed = [⟨.markDeferred, s.round.roundCount, 0, cause'.code⟩] := by simp only [owed, cause]
      cases order <;>
        simp only [State.quietParts, State.quietLine_moved, State.quietOwed_moved (cause := cause'), State.quietClose_moved,
          cause, noPost, Line.originate, records, deferred, List.foldl_append, List.foldl_cons, List.foldl_nil] <;>
        rfl

end Sys2Proof
end

section
/-! PROOFS. The service requests that are answered (sections 9.1 to 9.6): what a heard request hands to its handler, what each
handler answers, and the records in the answers. -/

namespace Sys2Proof.Machine

/-! ### A heard request reaches its handler (R32, R156) -/

/-- What the handler of a heard request finds: the frame ended and the answer window open (R9). -/
abbrev State.heard (s : State) : State := s.withLine (s.line.ended true)

section
variable {s : State} {octets : List Byte} {r : Request}

theorem exec_readStatus_of_hears (hears : s.HearsRequest octets r) (code : r.code = 1#8) :
    exec (.readStatus octets) s = .next (handleReadStatus r s.heard) :=
  congrArg Host.Outcome.next <| hears.handled (by simp [hasCode, code, RequestCode.octet]) handleReadStatus

theorem exec_readEntry_of_hears (hears : s.HearsRequest octets r) (code : r.code = 2#8) :
    exec (.readEntry octets) s = .next (handleReadEntry r s.heard) :=
  congrArg Host.Outcome.next <| hears.handled (by simp [hasCode, code, RequestCode.octet]) handleReadEntry

theorem exec_readGroup_of_hears (hears : s.HearsRequest octets r) (code : r.code = 3#8) :
    exec (.readGroup octets) s = .next (handleReadGroup r s.heard) :=
  congrArg Host.Outcome.next <| hears.handled (by simp [hasCode, code, RequestCode.octet]) handleReadGroup

theorem exec_readEvents_of_hears (hears : s.HearsRequest octets r) (code : r.code = 4#8) :
    exec (.readEvents octets) s = .next (handleReadEvents r s.heard) :=
  congrArg Host.Outcome.next <| hears.handled (by simp [hasCode, code, RequestCode.octet]) handleReadEvents

theorem exec_ackEvents_of_hears (hears : s.HearsRequest octets r) (code : r.code = 5#8) :
    exec (.ackEvents octets) s = .next (handleAckEvents r s.heard) :=
  congrArg Host.Outcome.next <| hears.handled (by simp [hasCode, code, RequestCode.octet]) handleAckEvents

theorem exec_forget_of_hears (hears : s.HearsRequest octets r) (code : r.code = 17#8) :
    exec (.forget octets) s = .next (handleForget r s.heard) :=
  congrArg Host.Outcome.next <| hears.handled (by simp [hasCode, code, RequestCode.octet]) handleForget

theorem exec_quiet_of_hears (hears : s.HearsRequest octets r) (code : r.code = 18#8) :
    exec (.quiet octets) s = .next (handleQuiet r s.heard) :=
  congrArg Host.Outcome.next <| hears.handled (by simp [hasCode, code, RequestCode.octet]) handleQuiet

theorem exec_restart_of_hears (hears : s.HearsRequest octets r) (code : r.code = 19#8) :
    exec (.restart octets) s = .next (handleRestart r s.heard) :=
  congrArg Host.Outcome.next <| hears.handled (by simp [hasCode, code, RequestCode.octet]) handleRestart

theorem exec_closeSetup_of_hears (hears : s.HearsRequest octets r) (code : r.code = 36#8) :
    exec (.closeSetup octets) s = .next (handleCloseSetup r s.heard) :=
  congrArg Host.Outcome.next <| hears.handled (by simp [hasCode, code, RequestCode.octet]) handleCloseSetup

/-- A code outside the twelve in use has its own row (R158 step 1). -/
theorem exec_unknownRequestCode_of_hears (hears : s.HearsRequest octets r)
    (unknown : r.code ∉ [1#8, 2#8, 3#8, 4#8, 5#8, 17#8, 18#8, 19#8, 33#8, 34#8, 35#8, 36#8]) :
    exec (.unknownRequestCode octets) s = .next (handleUnknownCode r s.heard) := by
  have accepted : (!knownCode r.code) = true := by
    rw [Bool.not_eq_true', knownCode, List.any_eq_false]
    intro c _ same
    rw [beq_iff_eq] at same
    rw [← same] at unknown
    exact unknown (by cases c <;> decide)
  exact congrArg Host.Outcome.next (hears.handled (accepts := fun r => !knownCode r.code) accepted handleUnknownCode)

/-- A refused request changes nothing but the slot (R160). -/
theorem State.HearsRequest.refused (hears : s.HearsRequest octets r) (status : Status) :
    s.heard.refuse r status = s.answering ⟨s.own, r.code, status.code, []⟩ .none :=
  hears.responded s.handler status [] .none

/-- A DONE answer without an effect (R163). -/
theorem State.HearsRequest.answered (hears : s.HearsRequest octets r) (payload : List Byte) :
    s.heard.answer r payload = s.answering ⟨s.own, r.code, 0, payload⟩ .none :=
  hears.responded s.handler .done payload .none

/-- A DONE answer whose effect waits for its end (R163). -/
theorem State.HearsRequest.awaits (hears : s.HearsRequest octets r) (effect : Awaited) :
    s.heard.respond r .done [] effect = s.answering ⟨s.own, r.code, 0, []⟩ effect :=
  hears.responded s.handler .done [] effect

end

/-! ### The argument octet (R158 step 2) -/

section
variable {a : Byte} {args : List Byte} {lo hi : Nat}

theorem oneArg_of_range (low : lo ≤ a.toNat) (high : a.toNat ≤ hi) : oneArg [a] lo hi = some a :=
  oneArg_eq_some.mpr ⟨rfl, low, high⟩

theorem oneArg_of_outside (outside : a.toNat < lo ∨ hi < a.toNat) : oneArg [a] lo hi = none :=
  if_neg (by omega)

theorem oneArg_of_length_ne (other : args.length ≠ 1) : oneArg args lo hi = none := by
  refine Option.eq_none_iff_forall_ne_some.mpr fun a passed => ?_
  obtain ⟨rfl, -, -⟩ := oneArg_eq_some.mp passed
  exact other rfl

end

/-! ### What each handler does with its argument -/

section
variable {r : Request} {s : State} {a : Byte}

theorem handleReadStatus_of_reported {code : BitVec 3} (args : r.args = []) (state : s.node.state.reported = some code) :
    handleReadStatus r s = s.answer r (s.statusRecord code) := by
  rw [handleReadStatus, if_pos args, state]

theorem handleReadStatus_of_args (args : r.args ≠ []) : handleReadStatus r s = s.refuse r .refusedArg := if_neg args

theorem handleReadEntry_of_range (passed : oneArg r.args 1 62 = some a) (state : s.node.state ≠ .setup) :
    handleReadEntry r s = s.answer r (s.table.entry (a.setWidth 6)).octets := by
  rw [handleReadEntry, passed]
  exact if_neg state

theorem handleReadEntry_of_setup (passed : oneArg r.args 1 62 = some a) (state : s.node.state = .setup) :
    handleReadEntry r s = s.refuse r .refusedState := by
  rw [handleReadEntry, passed]
  exact if_pos state

theorem handleReadEntry_of_none (passed : oneArg r.args 1 62 = none) : handleReadEntry r s = s.refuse r .refusedArg := by
  rw [handleReadEntry, passed]

theorem handleReadGroup_of_range (passed : oneArg r.args 0 7 = some a) (state : s.node.state ≠ .setup) :
    handleReadGroup r s = s.answer r (s.groups.cells[(a.extractLsb' 0 3).toFin]).octets := by
  rw [handleReadGroup, passed]
  exact if_neg state

theorem handleReadGroup_of_setup (passed : oneArg r.args 0 7 = some a) (state : s.node.state = .setup) :
    handleReadGroup r s = s.refuse r .refusedState := by
  rw [handleReadGroup, passed]
  exact if_pos state

theorem handleReadGroup_of_none (passed : oneArg r.args 0 7 = none) : handleReadGroup r s = s.refuse r .refusedArg := by
  rw [handleReadGroup, passed]

theorem handleReadEvents_of_range (passed : oneArg r.args 1 4 = some a) :
    handleReadEvents r s = s.answer r (s.log.readPayload a.toNat) := by
  rw [handleReadEvents, passed]

theorem handleReadEvents_of_none (passed : oneArg r.args 1 4 = none) : handleReadEvents r s = s.refuse r .refusedArg := by
  rw [handleReadEvents, passed]

theorem handleAckEvents_of_range (passed : oneArg r.args 1 16 = some a) :
    handleAckEvents r s = (s.withLog (s.log.acknowledge a.toNat)).answer r (s.log.ackPayload a.toNat) := by
  rw [handleAckEvents, passed]

theorem handleAckEvents_of_none (passed : oneArg r.args 1 16 = none) : handleAckEvents r s = s.refuse r .refusedArg := by
  rw [handleAckEvents, passed]

theorem handleForget_of_lapsed (passed : oneArg r.args 1 62 = some a) (state : s.node.state ≠ .setup)
    (lapsed : (s.table.entry (a.setWidth 6)).state = .lapsed) :
    handleForget r s = (s.withTable (s.table.withEntry (a.setWidth 6) Entry.vacant)).answer r [] := by
  rw [handleForget, passed]
  exact (if_neg state).trans (if_pos lapsed)

theorem handleForget_of_refused (passed : oneArg r.args 1 62 = some a)
    (refused : s.node.state = .setup ∨ (s.table.entry (a.setWidth 6)).state ≠ .lapsed) :
    handleForget r s = s.refuse r .refusedState := by
  rw [handleForget, passed]
  by_cases state : s.node.state = .setup
  · exact if_pos state
  · exact (if_neg state).trans (if_neg (refused.resolve_left state))

theorem handleForget_of_none (passed : oneArg r.args 1 62 = none) : handleForget r s = s.refuse r .refusedArg := by
  rw [handleForget, passed]

theorem handleQuiet_of_active (passed : oneArg r.args 1 255 = some a) (state : s.node.state = .active) :
    handleQuiet r s = s.respond r .done [] (.quiet a) := by
  rw [handleQuiet, passed]
  exact if_pos state

theorem handleQuiet_of_inactive (passed : oneArg r.args 1 255 = some a) (state : s.node.state ≠ .active) :
    handleQuiet r s = s.refuse r .refusedState := by
  rw [handleQuiet, passed]
  exact if_neg state

theorem handleQuiet_of_none (passed : oneArg r.args 1 255 = none) : handleQuiet r s = s.refuse r .refusedArg := by
  rw [handleQuiet, passed]

theorem handleRestart_of_taken (args : r.args = []) (state : s.node.state ≠ .setup) :
    handleRestart r s = s.respond r .done [] .restart := (if_pos args).trans (if_neg state)

theorem handleRestart_of_setup (args : r.args = []) (state : s.node.state = .setup) :
    handleRestart r s = s.refuse r .refusedState := (if_pos args).trans (if_pos state)

theorem handleRestart_of_args (args : r.args ≠ []) : handleRestart r s = s.refuse r .refusedArg := if_neg args

theorem handleCloseSetup_of_single (args : r.args = []) (state : s.node.state = .setup) (single : r.broadcast = false) :
    handleCloseSetup r s = s.respond r .done [] .closeSetup :=
  (if_pos args).trans <| (if_pos state).trans <| if_neg (ne_true_of_eq_false single)

theorem handleCloseSetup_of_broadcast (args : r.args = []) (state : s.node.state = .setup)
    (broadcast : r.broadcast = true) :
    handleCloseSetup r s = (s.withHandler { s.handler with awaited := .none }).respond r .done [] .closeSetup :=
  (if_pos args).trans <| (if_pos state).trans <| if_pos broadcast

theorem handleCloseSetup_of_closed (args : r.args = []) (state : s.node.state ≠ .setup) :
    handleCloseSetup r s = s.refuse r .refusedState := (if_pos args).trans (if_neg state)

theorem handleCloseSetup_of_args (args : r.args ≠ []) : handleCloseSetup r s = s.refuse r .refusedArg := if_neg args

theorem State.configure_of_locked {store : Store} (state : s.node.state ≠ .setup) :
    s.configure r (some store) = s.refuse r .refusedLocked := if_neg state

end

/-! ### An entry by the argument that names it -/

section
variable (i : Fin 62)

theorem toNat_ofNat_station : (BitVec.ofNat 8 (i.val + 1)).toNat = i.val + 1 := by
  rw [BitVec.toNat_ofNat, Nat.mod_eq_of_lt (by omega)]

theorem setWidth_station : (BitVec.ofNat 8 (i.val + 1)).setWidth 6 = stationOf i := by
  refine BitVec.eq_of_toNat_eq ?_
  rw [BitVec.toNat_setWidth, toNat_ofNat_station, toNat_stationOf, Nat.mod_eq_of_lt (by omega)]

theorem oneArg_station : oneArg [BitVec.ofNat 8 (i.val + 1)] 1 62 = some (BitVec.ofNat 8 (i.val + 1)) :=
  oneArg_of_range (by rw [toNat_ofNat_station]; omega) (by rw [toNat_ofNat_station]; omega)

variable (t : Table)

theorem Table.entry_stationOf : t.entry (stationOf i) = t.entries[i] := by
  have range : 1 ≤ (stationOf i).toNat ∧ (stationOf i).toNat ≤ 62 := by rw [toNat_stationOf]; omega
  rw [Table.entry, dif_pos range]
  simp only [toNat_stationOf, Nat.add_sub_cancel, Fin.getElem_fin]

theorem Table.withEntry_stationOf (e : Entry) :
    t.withEntry (stationOf i) e = { t with entries := t.entries.set i.val e } := by
  have range : 1 ≤ (stationOf i).toNat ∧ (stationOf i).toNat ≤ 62 := by rw [toNat_stationOf]; omega
  rw [Table.withEntry, dif_pos range]
  simp only [toNat_stationOf, Nat.add_sub_cancel]

end

theorem oneArg_group (g : Fin 8) : oneArg [BitVec.ofNat 8 g.val] 0 7 = some (BitVec.ofNat 8 g.val) := by
  decide +revert

theorem toFin_group (g : Fin 8) : ((BitVec.ofNat 8 g.val).extractLsb' 0 3).toFin = g := by decide +revert

/-! ### The octets of packed flags in the records -/

theorem status_octet_fields (code : BitVec 3) (alarm aux fault : Bool) :
    ((code ++ BitVec.ofBool alarm ++ BitVec.ofBool aux ++ BitVec.ofBool fault ++ 0#2 : Byte).extractLsb' 5 3 = code) ∧
    (code ++ BitVec.ofBool alarm ++ BitVec.ofBool aux ++ BitVec.ofBool fault ++ 0#2 : Byte).getLsbD 4 = alarm ∧
    (code ++ BitVec.ofBool alarm ++ BitVec.ofBool aux ++ BitVec.ofBool fault ++ 0#2 : Byte).getLsbD 3 = aux ∧
    (code ++ BitVec.ofBool alarm ++ BitVec.ofBool aux ++ BitVec.ofBool fault ++ 0#2 : Byte).getLsbD 2 = fault ∧
    (code ++ BitVec.ofBool alarm ++ BitVec.ofBool aux ++ BitVec.ofBool fault ++ 0#2 : Byte).extractLsb' 0 2 = 0#2 := by
  decide +kernel +revert

theorem entry_octet1_fields (code group : BitVec 3) (value aux : Bool) :
    (code ++ BitVec.ofBool value ++ BitVec.ofBool aux ++ group : Byte).extractLsb' 5 3 = code ∧
    (code ++ BitVec.ofBool value ++ BitVec.ofBool aux ++ group : Byte).getLsbD 4 = value ∧
    (code ++ BitVec.ofBool value ++ BitVec.ofBool aux ++ group : Byte).getLsbD 3 = aux ∧
    (code ++ BitVec.ofBool value ++ BitVec.ofBool aux ++ group : Byte).extractLsb' 0 3 = group := by
  decide +kernel +revert

theorem entry_octet3_fields (code : BitVec 3) (alarm : Bool) (run : BitVec 4) :
    (code ++ BitVec.ofBool alarm ++ run : Byte).extractLsb' 5 3 = code ∧
    (code ++ BitVec.ofBool alarm ++ run : Byte).getLsbD 4 = alarm ∧
    (code ++ BitVec.ofBool alarm ++ run : Byte).extractLsb' 0 4 = run := by
  decide +kernel +revert

theorem group_octet3_fields (complete : Bool) (limit : BitVec 2) :
    (BitVec.ofBool complete ++ limit ++ 0#5 : Byte).getLsbD 7 = complete ∧
    (BitVec.ofBool complete ++ limit ++ 0#5 : Byte).extractLsb' 5 2 = limit ∧
    (BitVec.ofBool complete ++ limit ++ 0#5 : Byte).extractLsb' 0 5 = 0#5 := by
  decide +kernel +revert

theorem Entry.octets_of_vacant {e : Entry} (vacant : e.state = .vacant) : e.octets = [0#8] := by
  rw [Entry.octets, vacant]

theorem Entry.octets_of_not_vacant {e : Entry} (held : e.state ≠ .vacant) : e.octets = e.fullRecord := by
  rw [Entry.octets]
  cases state : e.state with
  | vacant => exact absurd state held
  | seen | present | lapsing | lapsed => rfl

theorem Entry.length_fullRecord (e : Entry) :
    e.fullRecord.length = 9 + (if e.lastValue.isSome then 3 else 0) + (if e.lastAux.isSome then 2 else 0) := by
  cases value : e.lastValue <;> cases aux : e.lastAux <;>
    simp [Entry.fullRecord, value, aux, valueOctets, auxOctets, octets16, octets24]

end Sys2Proof.Machine

namespace Sys2Proof

open Machine

/-- Settles O36: the four reads by their handlers, then the records field by field. -/
theorem readsAreAnsweredFromTheState : Obligations.ReadsAreAnsweredFromTheState := by
  refine ⟨fun s octets r hears => ⟨fun code args => ?_, fun i code args state => ?_, fun g code args state => ?_,
    fun n code args low high => ?_⟩, fun s code => ?_, fun e => ⟨Entry.octets_of_vacant, fun held run => ?_⟩, fun c => ?_,
    fun r => ?_, fun v w => ⟨octets24_eq v, octets32_eq w⟩⟩
  · obtain ⟨-, -, -, -, answers, -⟩ := id hears
    have reply {c : BitVec 3} (state : s.node.state.reported = some c) :
        exec (.readStatus octets) s = .next (s.answering ⟨s.own, 1, 0, s.statusRecord c⟩ .none) := by
      rw [exec_readStatus_of_hears hears code, handleReadStatus_of_reported (s := s.heard) args state, hears.answered, code]
      rfl
    rcases answers with state | state | state <;> rw [state] at reply ⊢ <;> exact ⟨_, rfl, reply rfl⟩
  · rw [exec_readEntry_of_hears hears code, handleReadEntry_of_range (s := s.heard) (args ▸ oneArg_station i) state, hears.answered, code,
      setWidth_station, Table.entry_stationOf]
    rfl
  · rw [exec_readGroup_of_hears hears code, handleReadGroup_of_range (s := s.heard) (args ▸ oneArg_group g) state, hears.answered, code]
    simp only [toFin_group]
    rfl
  · rw [exec_readEvents_of_hears hears code, handleReadEvents_of_range (s := s.heard) (args ▸ oneArg_of_range low high), hears.answered,
      code]
    rfl
  · exact ⟨_, status_octet_fields code s.groups.alarm s.node.straps.auxEnabled s.line.fault, rfl⟩
  · obtain ⟨state, value, aux, group⟩ :=
      entry_octet1_fields e.state.code e.group e.lastValue.isSome e.lastAux.isSome
    obtain ⟨quality, alarm, missRun⟩ := entry_octet3_fields e.lastQuality.code e.alarm (BitVec.ofNat 4 e.missRun)
    rw [Entry.octets_of_not_vacant held]
    refine ⟨_, _, ⟨state.trans ?_, value, aux, group⟩, ⟨quality.trans ?_, alarm, ?_⟩, ?_, e.length_fullRecord⟩
    · cases e.state <;> rfl
    · cases e.lastQuality <;> rfl
    · rw [missRun, BitVec.toNat_ofNat, Nat.mod_eq_of_lt (by omega)]
    · cases value : e.lastValue <;> cases aux : e.lastAux <;> simp only [Entry.fullRecord, value, aux] <;> rfl
  · obtain ⟨complete, limit, zero⟩ := group_octet3_fields c.record.complete c.limit.code
    refine ⟨_, ⟨complete, limit.trans ?_, zero⟩, ?_, ?_⟩
    · cases c.limit <;> rfl
    · cases extremes : c.record.extremes <;> simp only [GroupCell.octets, extremes] <;> rfl
    · cases extremes : c.record.extremes <;> simp only [GroupCell.octets, extremes] <;> rfl
  · cases kind : r.kind <;> simp only [EventRecord.octets, kind] <;> rfl

/-- Settles O37: both answers are composed after the change. -/
theorem ackAndForgetRemoveWhatTheyName : Obligations.AckAndForgetRemoveWhatTheyName := by
  refine ⟨fun s octets r n hears code args low high => ?_, fun s octets r i hears code args state =>
    ⟨fun lapsed => ?_, fun held => ?_⟩⟩
  · have answered := State.HearsRequest.answered (s := s.withLog (s.log.acknowledge n.toNat)) hears
      (s.log.ackPayload n.toNat)
    rw [exec_ackEvents_of_hears hears code, handleAckEvents_of_range (s := s.heard) (args ▸ oneArg_of_range low high)]
    refine congrArg Host.Outcome.next (answered.trans ?_)
    rw [code, EventLog.ackPayload, EventLog.acknowledge, List.length_drop]
    rfl
  · have named : (s.table.entry ((BitVec.ofNat 8 (i.val + 1)).setWidth 6)).state = .lapsed := by
      rw [setWidth_station, Table.entry_stationOf, lapsed]
    have answered := State.HearsRequest.answered (s := s.withTable (s.table.withEntry (stationOf i) Entry.vacant)) hears []
    rw [exec_forget_of_hears hears code, handleForget_of_lapsed (s := s.heard) (args ▸ oneArg_station i) state named,
      setWidth_station]
    refine ⟨_, congrArg Host.Outcome.next answered, ?_, fun j other => ?_, ?_⟩
    · simp only [State.answering, State.table_withTable, Table.withEntry_stationOf, Fin.getElem_fin, Vector.getElem_set_self]
    · have apart : i.val ≠ j.val := fun same => other (Fin.ext same.symm)
      simp only [State.answering, State.table_withTable, Table.withEntry_stationOf, Fin.getElem_fin,
        Vector.getElem_set_ne _ _ apart]
    · rw [Table.withEntry_stationOf, code]
      rfl
  · have named : (s.table.entry ((BitVec.ofNat 8 (i.val + 1)).setWidth 6)).state ≠ .lapsed := by
      rw [setWidth_station, Table.entry_stationOf]
      exact held
    rw [exec_forget_of_hears hears code, handleForget_of_refused (s := s.heard) (args ▸ oneArg_station i) (.inr named), hears.refused, code]
    rfl

/-- Settles O38: the three effects wait in the handler. -/
theorem stateCommandsWaitForTheirAnswer : Obligations.StateCommandsWaitForTheirAnswer := by
  refine fun s octets r hears => ⟨fun n code args rounds state => ?_, fun code args state => ?_, fun code args state => ?_⟩
  · have low : 1 ≤ n.toNat := Nat.one_le_iff_ne_zero.mpr fun none => rounds (BitVec.eq_of_toNat_eq none)
    have passed : oneArg r.args 1 255 = some n := args ▸ oneArg_of_range low (by omega)
    rw [exec_quiet_of_hears hears code, handleQuiet_of_active (s := s.heard) passed state, hears.awaits, code]
    rfl
  · rw [exec_restart_of_hears hears code, handleRestart_of_taken (s := s.heard) args state, hears.awaits, code]
    rfl
  · have single : r.broadcast = false := broadcast_of_target_own hears.2.2.1 hears.2.2.2.1
    rw [exec_closeSetup_of_hears hears code, handleCloseSetup_of_single (s := s.heard) args state single, hears.awaits, code]
    rfl

end Sys2Proof
end

section
/-! PROOFS. Refused requests, broadcasts, the effect of RESTART and the exits from SETUP (sections 4.2, 4.7 and 9.2). -/

namespace Sys2Proof.Machine

/-! ### Broadcasts (R26, R156, R157) -/

section
variable {s : State} {octets : List Byte} {r : Request}

theorem Request.broadcast_of_target (target : r.target = 63#6) : r.broadcast = true := by
  rw [Request.broadcast_eq, target, decide_eq_true rfl]

/-- Every state but BARRED takes a RESTART (R156). -/
theorem NodeState.takes_restart {st : NodeState} (code : r.code = 19#8) (state : st ≠ .barred) : st.takes r = true := by
  cases st <;> simp_all [NodeState.takes, RequestCode.octet]

/-- SETUP, LISTEN and ACTIVE take a CLOSE-SETUP (R156). -/
theorem NodeState.takes_closeSetup {st : NodeState} (code : r.code = 36#8) (answers : st.Answers) :
    st.takes r = true := by
  rcases answers with rfl | rfl | rfl <;> simp [NodeState.takes, RequestCode.octet, code]

/-- The state in which a request has ended on the line: a single-target one has opened an answer window (R9). -/
abbrev State.requested (s : State) (r : Request) : State := s.withLine (s.line.ended (decide (r.target ≠ 63#6)))

theorem State.requested_of_broadcast (target : r.target = 63#6) : s.requested r = s.withLine (s.line.ended false) := by
  rw [State.requested, target, decide_eq_false (not_not.mpr rfl)]

theorem State.requested_of_target (single : r.target ≠ 63#6) : s.requested r = s.heard := by
  rw [State.requested, decide_eq_true single]

/-- A request delivered to the node and taken goes to its handler after the frame's end on the line (R32). -/
theorem State.Hearing.handled (hears : s.Hearing) (request : requestOf octets = some r) {accepts : Request → Bool}
    (accepted : accepts r = true) (addressed : s.addressed r = true) (taken : s.node.state.takes r = true)
    (handle : Request → State → State) :
    s.unlessReset (s.onRequest octets accepts handle) =
      handle r (s.requested r) := by
  rw [State.unlessReset_of_clear _ hears.1, State.onRequest_of_taken handle hears.2 request accepted addressed taken,
    Line.requestEnd_eq]

/-- A request that the node state does not take only ends on the line (R156). -/
theorem State.Hearing.untaken (hears : s.Hearing) (request : requestOf octets = some r) {accepts : Request → Bool}
    (accepted : accepts r = true) (ignored : s.node.state.takes r = false) (handle : Request → State → State) :
    s.unlessReset (s.onRequest octets accepts handle) = s.requested r := by
  rw [State.unlessReset_of_clear _ hears.1,
    State.onRequest_of_untaken handle hears.2 request accepted (by rw [ignored, Bool.and_false]), Line.requestEnd_eq]

theorem exec_restart_of_taken (hears : s.Hearing) (request : requestOf octets = some r) (code : r.code = 19#8)
    (addressed : s.addressed r = true) (state : s.node.state ≠ .barred) :
    exec (.restart octets) s = .next (handleRestart r (s.requested r)) :=
  congrArg Host.Outcome.next <| hears.handled request (by simp [hasCode, code, RequestCode.octet]) addressed
    (NodeState.takes_restart code state) handleRestart

theorem exec_restart_of_barred (hears : s.Hearing) (request : requestOf octets = some r) (code : r.code = 19#8)
    (state : s.node.state = .barred) :
    exec (.restart octets) s = .next (s.requested r) :=
  congrArg Host.Outcome.next <| hears.untaken request (by simp [hasCode, code, RequestCode.octet])
    (NodeState.takes_eq_false (.inl state)) handleRestart

theorem exec_closeSetup_of_taken (hears : s.Hearing) (request : requestOf octets = some r) (code : r.code = 36#8)
    (addressed : s.addressed r = true) (answers : s.node.state.Answers) :
    exec (.closeSetup octets) s =
      .next (handleCloseSetup r (s.requested r)) :=
  congrArg Host.Outcome.next <| hears.handled request (by simp [hasCode, code, RequestCode.octet]) addressed
    (NodeState.takes_closeSetup code answers) handleCloseSetup

theorem exec_closeSetup_of_silent (hears : s.Hearing) (request : requestOf octets = some r) (code : r.code = 36#8)
    (silent : ¬ s.node.state.Answers) :
    exec (.closeSetup octets) s = .next (s.requested r) := by
  have state : s.node.state = .barred ∨ s.node.state = .mute := by
    cases state : s.node.state <;> simp_all [NodeState.Answers]
  exact congrArg Host.Outcome.next <| hears.untaken request (by simp [hasCode, code, RequestCode.octet])
    (NodeState.takes_eq_false (state.imp_right fun mute => .inl ⟨mute, by simp [code]⟩)) handleCloseSetup

/-- A refused broadcast is answered by nothing (R157). -/
theorem State.refuse_of_broadcast {status : Status} (broadcast : r.broadcast = true) (refused : status ≠ .done) :
    s.refuse r status = s :=
  (State.respond_of_broadcast status [] .none broadcast).trans (if_neg refused)

/-- In MUTE an answer is dropped, and its effect follows at once (R13, R163). -/
theorem State.respond_of_mute (status : Status) (payload : List Byte) (effect : Awaited) (single : r.broadcast = false)
    (mute : s.node.state = .mute) : s.respond r status payload effect = s.carryOut effect := by
  rcases s.offerAnswer_cases ⟨s.own, r.code, status.code, payload⟩ effect with ⟨-, notMute, -⟩ | ⟨-, dropped⟩
  · exact absurd mute notMute
  · exact (if_neg (ne_true_of_eq_false single)).trans dropped

/-- A heard request that its handler refuses is answered with the status (R160). -/
theorem State.HearsRequest.refuses {c : Instr} {n : Byte} {handle : Request → State → State} {status : Status}
    (hears : s.HearsRequest octets r) (code : r.code = n) (executed : exec c s = .next (handle r s.heard))
    (refused : handle r s.heard = s.heard.refuse r status) :
    exec c s = .next (s.answering ⟨s.own, n, status.code, []⟩ .none) := by
  rw [executed, refused, hears.refused, code]

/-- A heard CONFIGURE request is refused for its argument, and otherwise locked outside SETUP (R158, R173). -/
theorem State.HearsRequest.configureRefusals {c : Instr} {n : Byte} {written : Option Store}
    (hears : s.HearsRequest octets r) (code : r.code = n) (executed : exec c s = .next (s.heard.configure r written)) :
    (written = none → exec c s = .next (s.answering ⟨s.own, n, 2, []⟩ .none)) ∧
    (written ≠ none → s.node.state ≠ .setup → exec c s = .next (s.answering ⟨s.own, n, 4, []⟩ .none)) := by
  refine ⟨fun refused => ?_, fun passed locked => ?_⟩
  · rw [executed, refused, hears.configure_none, code]
  · obtain ⟨store, stored⟩ := Option.ne_none_iff_exists'.mp passed
    rw [executed, stored, State.configure_of_locked (s := s.heard) locked, hears.refused, code]
    rfl

/-! ### The effects that end SETUP and restart the node (R62, R76) -/

theorem State.carryOut_restart_of_restarts (state : s.node.state.Restarts) : s.carryOut .restart = s.restartEffect := by
  rw [State.carryOut_restart, if_pos state]

theorem State.carryOut_closeSetup_of_setup (setup : s.node.state = .setup) : s.carryOut .closeSetup = s.exitSetup 1 := by
  rw [State.carryOut, setup]

/-- A listener's listen timer is stopped; a sampling node's holds 2P and its station's share (R63). -/
theorem State.listenLoad_eq (s : State) : s.listenLoad =
    if s.own = 0#6 ∨ s.own = 63#6 then none
    else some (Config.periodClocks s.node.straps.period * (128 + s.own.toNat) / 64) := by
  by_cases listener : s.own = 0#6 ∨ s.own = 63#6
  · have notSampling : s.sampling = false := by
      rcases listener with own | own <;> rw [State.own] at own <;> rw [State.sampling, own] <;> rfl
    rw [State.listenLoad, notSampling, if_pos listener, if_neg Bool.false_ne_true]
  · have sampling : s.sampling = true := by
      simpa [State.sampling, samplingStation, State.own, not_or] using listener
    rw [State.listenLoad, sampling, if_neg listener, if_pos rfl]
    rfl

/-- The exit from SETUP: the SETUP-CLOSED record, STRAP-INVALID after it at station 63, and entry to LISTEN (R62, R63). -/
theorem State.exitSetup_listening (s : State) (detail : BitVec 8) : s.exitSetup detail = { s with
    node := { s.node with state := .listen, setupTimer := none, adoption := .none, silentMarks := 0, listenClaim := false }
    round := { s.round with epochTimer := some s.period, listenTimer := s.listenLoad }
    log := if s.own = 63#6 then
        (s.log.offer ⟨.setupClosed, s.round.roundCount, 0, detail⟩).offer ⟨.strapInvalid, s.round.roundCount, 0, 63⟩
      else s.log.offer ⟨.setupClosed, s.round.roundCount, 0, detail⟩ } := by
  by_cases invalid : s.own = 63#6
  · rw [State.exitSetup, if_pos invalid, if_pos invalid]
    rfl
  · rw [State.exitSetup, if_neg invalid, if_neg invalid]
    rfl

theorem exec_setupTimerExpiry_of_setup (clear : s.node.resetHeld = false) (setup : s.node.state = .setup)
    (running : s.node.setupTimer.isSome = true) : exec .setupTimerExpiry s = .next (s.exitSetup 0) := by
  obtain ⟨n, timer⟩ := Option.isSome_iff_exists.mp running
  simp only [exec, execSetupTimerExpiry, State.unlessReset_of_clear _ clear, timer, setup]

end

end Sys2Proof.Machine

namespace Sys2Proof

open Machine

/-- Settles O42: broadcasts, MUTE, and then each code's checks in their order. -/
theorem refusalsFollowTheOrderOfChecks : Obligations.RefusalsFollowTheOrderOfChecks := by
  refine ⟨fun s octets r ⟨hearing, request, target⟩ => ?_, fun s octets r hearing request sampling own mute code args => ?_,
    fun s octets r hears => ⟨fun unknown => ?_, fun length => ?_, fun a args => ?_, fun args => ?_, fun args => ?_, fun code => ?_,
      fun code => ?_, fun code => ?_⟩⟩
  · have broadcast : r.broadcast = true := Request.broadcast_of_target target
    have addressed : s.addressed r = true := State.addressed_eq_true (.inl target)
    have ended : s.requested r = { s with line := s.line.ended false } := State.requested_of_broadcast target
    rw [← ended]
    refine ⟨fun code refused => ?_, fun code refused => ?_⟩
    · by_cases barred : s.node.state = .barred
      · exact exec_restart_of_barred hearing request code barred
      · rw [exec_restart_of_taken hearing request code addressed barred]
        by_cases args : r.args = []
        · have setup := (refused.resolve_left (not_not.mpr args)).resolve_right barred
          exact congrArg Host.Outcome.next
            ((handleRestart_of_setup (s := s.requested r) args setup).trans (State.refuse_of_broadcast broadcast nofun))
        · exact congrArg Host.Outcome.next
            ((handleRestart_of_args args).trans (State.refuse_of_broadcast broadcast nofun))
    · by_cases answers : s.node.state.Answers
      · rw [exec_closeSetup_of_taken hearing request code addressed answers]
        by_cases args : r.args = []
        · have closed := refused.resolve_left (not_not.mpr args)
          exact congrArg Host.Outcome.next
            ((handleCloseSetup_of_closed (s := s.requested r) args closed).trans (State.refuse_of_broadcast broadcast nofun))
        · exact congrArg Host.Outcome.next
            ((handleCloseSetup_of_args args).trans (State.refuse_of_broadcast broadcast nofun))
      · exact exec_closeSetup_of_silent hearing request code answers
  · have single : r.broadcast = false := broadcast_of_target_own sampling own
    have ended : s.requested r = s.heard := State.requested_of_target fun target => by
      rw [Request.broadcast_of_target target] at single
      exact Bool.noConfusion single
    rw [exec_restart_of_taken hearing request code (State.addressed_eq_true (.inr ⟨sampling, own⟩)) (by simp [mute]), ended]
    exact congrArg Host.Outcome.next ((handleRestart_of_args args).trans (State.respond_of_mute _ _ .none single mute))
  · exact hears.refuses rfl (exec_unknownRequestCode_of_hears hears unknown) (status := .refusedCode) rfl
  · have outside {lo hi : Nat} : oneArg r.args lo hi = none := oneArg_of_length_ne length
    exact ⟨fun code => hears.refuses code (exec_readEntry_of_hears hears code) (handleReadEntry_of_none outside),
      fun code => hears.refuses code (exec_readGroup_of_hears hears code) (handleReadGroup_of_none outside),
      fun code => hears.refuses code (exec_readEvents_of_hears hears code) (handleReadEvents_of_none outside),
      fun code => hears.refuses code (exec_ackEvents_of_hears hears code) (handleAckEvents_of_none outside),
      fun code => hears.refuses code (exec_forget_of_hears hears code) (handleForget_of_none outside),
      fun code => hears.refuses code (exec_quiet_of_hears hears code) (handleQuiet_of_none outside)⟩
  · have outside {lo hi : Nat} (h : a.toNat < lo ∨ hi < a.toNat) : oneArg r.args lo hi = none := args ▸ oneArg_of_outside h
    have inside {lo hi : Nat} (low : lo ≤ a.toNat) (high : a.toNat ≤ hi) : oneArg r.args lo hi = some a :=
      args ▸ oneArg_of_range low high
    exact ⟨fun code h => hears.refuses code (exec_readEntry_of_hears hears code)
        (handleReadEntry_of_none (outside (by omega))),
      fun code h => hears.refuses code (exec_readGroup_of_hears hears code)
        (handleReadGroup_of_none (outside (by omega))),
      fun code h => hears.refuses code (exec_readEvents_of_hears hears code)
        (handleReadEvents_of_none (outside (by omega))),
      fun code h => hears.refuses code (exec_ackEvents_of_hears hears code)
        (handleAckEvents_of_none (outside (by omega))),
      fun code h => hears.refuses code (exec_forget_of_hears hears code)
        (handleForget_of_none (outside (by omega))),
      fun code h => hears.refuses code (exec_quiet_of_hears hears code)
        (handleQuiet_of_none (outside (by omega))),
      fun code low high setup => hears.refuses code (exec_readEntry_of_hears hears code)
        (handleReadEntry_of_setup (inside low high) setup),
      fun code high setup => hears.refuses code (exec_readGroup_of_hears hears code)
        (handleReadGroup_of_setup (inside (Nat.zero_le _) high) setup),
      fun code low high setup => hears.refuses code (exec_forget_of_hears hears code)
        (handleForget_of_refused (inside low high) (.inl setup)),
      fun code low inactive => hears.refuses code (exec_quiet_of_hears hears code)
        (handleQuiet_of_inactive (inside (by omega) (by omega)) inactive)⟩
  · exact ⟨fun code => hears.refuses code (exec_readStatus_of_hears hears code) (handleReadStatus_of_args args),
      fun code => hears.refuses code (exec_restart_of_hears hears code) (handleRestart_of_args args),
      fun code => hears.refuses code (exec_closeSetup_of_hears hears code) (handleCloseSetup_of_args args)⟩
  · exact ⟨fun code setup => hears.refuses code (exec_restart_of_hears hears code) (handleRestart_of_setup args setup),
      fun code closed => hears.refuses code (exec_closeSetup_of_hears hears code) (handleCloseSetup_of_closed args closed)⟩
  · exact hears.configureRefusals code (exec_configurePlan_of_hears hears code)
  · exact hears.configureRefusals code (exec_configureCal_of_hears hears code)
  · exact hears.configureRefusals code (exec_configureLimits_of_hears hears code)

/-- Settles O43: a broadcast restarts the node at once, and so does a request to a muted node, whose answer is dropped. -/
theorem restartReturnsNodeToListen : Obligations.RestartReturnsNodeToListen := by
  intro s octets r hearing request code args named
  have carried : (s.requested r).respond r .done [] .restart = (s.requested r).restartEffect ∧ s.addressed r = true ∧
      s.node.state ≠ .setup ∧ s.node.state ≠ .barred := by
    rcases named with ⟨target, state⟩ | ⟨single, own, sampling, mute⟩
    · have restarts : (s.requested r).node.state.Restarts := state
      refine ⟨?_, State.addressed_eq_true (.inl target), ?_, ?_⟩
      · rw [State.respond_of_broadcast _ _ _ (Request.broadcast_of_target target), if_pos rfl,
          State.carryOut_restart_of_restarts restarts]
      · rcases state with state | state | state <;> simp [state]
      · rcases state with state | state | state <;> simp [state]
    · have restarts : (s.requested r).node.state.Restarts := .inr (.inr mute)
      have notBroadcast : r.broadcast = false := by rw [Request.broadcast_eq, decide_eq_false single]
      refine ⟨?_, State.addressed_eq_true (.inr ⟨sampling, own⟩), by simp [mute], by simp [mute]⟩
      rw [State.respond_of_mute (s := s.requested r) _ _ _ notBroadcast mute, State.carryOut_restart_of_restarts restarts]
  obtain ⟨restarted, addressed, notSetup, notBarred⟩ := carried
  rw [exec_restart_of_taken hearing request code addressed notBarred,
    handleRestart_of_taken (s := s.requested r) args notSetup, restarted]
  rfl

/-- Settles O44: both exits from SETUP, by their equation. -/
theorem setupEndsInListen : Obligations.SetupEndsInListen := by
  intro s clear setup listening
  have exits (u : State) (detail : BitVec 8) : u.exitSetup detail = listening u detail := by
    rw [State.exitSetup_listening, State.listenLoad_eq]
    rfl
  refine ⟨fun running => ?_, fun octets r ⟨hearing, request, target⟩ code args => ?_⟩
  · rw [exec_setupTimerExpiry_of_setup clear setup running, exits]
  · have broadcast : r.broadcast = true := Request.broadcast_of_target target
    rw [exec_closeSetup_of_taken hearing request code (State.addressed_eq_true (.inl target)) (.inl setup),
      State.requested_of_broadcast target, handleCloseSetup_of_broadcast (s := s.withLine (s.line.ended false)) args setup
        broadcast, State.respond_of_broadcast _ _ _ broadcast, if_pos rfl,
      State.carryOut_closeSetup_of_setup (s := (s.withLine (s.line.ended false)).withHandler _) setup, exits]
    rfl

end Sys2Proof
end

section
/-! PROOFS. Transmission attempts (sections 1.5, 4.5 and 4.7): what each outcome leaves in the slot, the run of failures, and
the end of an answer with the effect that waited for it. -/

namespace Sys2Proof.Machine

variable {s : State}

/-! ### The end of an answer, by the effect that waits (R163) -/

/-- What the awaited effect finds at the report of an answer's end. -/
abbrev State.reported (s : State) : State := s.withHandler { s.handler with awaited := .none }

theorem State.answerEnded_of_quiet {n : BitVec 8} (awaited : s.handler.awaited = .quiet n) (active : s.node.state = .active) :
    s.answerEnded = s.reported.muteEntry n := by
  have active' : s.reported.node.state = .active := active
  rw [State.answerEnded_eq, awaited, State.carryOut, active']

/-- A QUIET that ends in MUTE reloads the count (R68). -/
theorem State.answerEnded_of_quiet_mute {n : BitVec 8} (awaited : s.handler.awaited = .quiet n)
    (mute : s.node.state = .mute) :
    s.answerEnded = s.reported.withRound { s.round with muteCount := n } := by
  have mute' : s.reported.node.state = .mute := mute
  rw [State.answerEnded_eq, awaited, State.carryOut, mute']
  rfl

theorem State.answerEnded_of_restart (awaited : s.handler.awaited = .restart) (restarts : s.node.state.Restarts) :
    s.answerEnded = s.restartEffect := by
  rw [State.answerEnded_eq, awaited, State.carryOut_restart_of_restarts (s := s.reported) restarts]
  rfl

theorem State.answerEnded_of_closeSetup (awaited : s.handler.awaited = .closeSetup) (setup : s.node.state = .setup) :
    s.answerEnded = s.reported.exitSetup 1 := by
  rw [State.answerEnded_eq, awaited, State.carryOut_closeSetup_of_setup (s := s.reported) setup]

/-- Outside SETUP a CLOSE-SETUP has no effect (R62). -/
theorem State.answerEnded_of_closed (awaited : s.handler.awaited = .closeSetup) (closed : s.node.state ≠ .setup) :
    s.answerEnded = s.reported := by
  rw [State.answerEnded_eq, awaited, State.carryOut, State.node_withHandler]
  cases state : s.node.state with
  | setup => exact absurd state closed
  | listen | active | mute | barred => rfl

theorem State.handler_answerEnded (s : State) : s.answerEnded.handler = { s.handler with awaited := .none } := by
  rw [State.answerEnded_eq]
  cases s.handler.awaited with
  | none => rfl
  | quiet n =>
    rw [State.carryOut, State.node_withHandler]
    cases s.node.state <;> rfl
  | restart =>
    rw [State.carryOut_restart]
    split <;> rfl
  | closeSetup =>
    rw [State.carryOut, State.node_withHandler]
    cases s.node.state with
    | setup => rw [State.exitSetup_listening]; rfl
    | listen | active | mute | barred => rfl

theorem State.answerEnded_withLine_of_none (l : Line) (awaited : s.handler.awaited = .none) :
    (s.withLine l).answerEnded = s.withLine l := State.answerEnded_of_none (s := s.withLine l) awaited

/-- No effect leads into ACTIVE. -/
theorem State.answerEnded_ne_active (inactive : s.node.state ≠ .active) : s.answerEnded.node.state ≠ .active := by
  obtain ⟨-, -, -, -, state⟩ := (s.withHandler { s.handler with awaited := .none }).carryOut_frame s.handler.awaited
  rcases state with same | mute | listen
  · rw [State.answerEnded, same]; exact inactive
  · rw [State.answerEnded, mute]; nofun
  · rw [State.answerEnded, listen]; nofun

theorem State.answerEnded_slot_empty (empty : s.line.slot = .empty) : s.answerEnded.line.slot = .empty :=
  State.carryOut_slot_empty (s := s.reported) _ empty

/-! ### The run of failed attempts (R18, R67) -/

section
variable (detail : BitVec 8)

theorem State.failAttempt_of_inactive (inactive : s.node.state ≠ .active) : s.failAttempt detail = s := by
  simp only [State.failAttempt, State.countRun, State.judgeRun, inactive, if_false, false_and]

variable (noAnswer : s.line.slot.hasAnswer = false)
include noAnswer

/-- Below the eighth failure in ACTIVE an attempt counts there alone. -/
theorem State.failAttempt_of_below (below : s.node.state = .active → s.line.txRun < 7) : s.failAttempt detail =
    s.withLine { s.line with txRun := if s.node.state = .active then s.line.txRun + 1 else s.line.txRun } := by
  rcases State.failAttempt_cases detail noAnswer with ⟨inactive, e⟩ | ⟨active, -, e⟩ | ⟨active, eighth, -⟩
  · rw [e, if_neg inactive]; rfl
  · rw [e, if_pos active]
  · exact absurd (below active) (Nat.not_lt.mpr eighth)

theorem State.failAttempt_of_eighth (active : s.node.state = .active) (run : 7 ≤ s.line.txRun) :
    s.failAttempt detail = (s.offer .txErrorRun s.own detail).muteEntry 16 := by
  rcases State.failAttempt_cases detail noAnswer with ⟨inactive, -⟩ | ⟨-, below, -⟩ | ⟨-, -, e⟩
  · exact absurd active inactive
  · omega
  · exact e

theorem State.handler_failAttempt : (s.failAttempt detail).handler = s.handler := by
  rcases State.failAttempt_cases detail noAnswer with ⟨-, e⟩ | ⟨-, -, e⟩ | ⟨-, -, e⟩ <;> rw [e] <;> rfl

end

/-- With nothing awaited the two reports of a failed answer commute (R164). -/
theorem State.failAnswer_of_none (first : TakenFirst) (detail : BitVec 8) (awaited : s.handler.awaited = .none) :
    s.failAnswer first detail = (s.setSlot .empty).failAttempt detail := by
  cases first with
  | answerReport => rw [State.failAnswer, State.answerEnded_of_none (s := s.setSlot .empty) awaited]
  | otherReport =>
    rw [State.failAnswer, State.answerEnded_of_none]
    rw [State.handler_failAttempt (s := s.setSlot .empty) detail rfl]
    exact awaited

/-! ### Each outcome by the frame in the slot (R15, R16) -/

section
variable {p : Post} {a : Answer} (clear : s.node.resetHeld = false)
include clear

theorem exec_txSuccess_of_post (cond : s.line.cond = .frame) (slot : s.line.slot = .sending (.post p)) :
    exec .txSuccess s = .next (((s.deliverPost p).withLine { s.line.ended false with
        slot := .empty, txRun := if s.node.state = .active then 0 else s.line.txRun }).withNode
      { (s.deliverPost p).node with dupSuspect := false }) := by
  have delivered := s.deliverPost_after_success { s.line.frameEnd with slot := .empty } p
  simp only [exec, execTxSuccess, next_of_guard clear cond, slot]
  exact congrArg Host.Outcome.next delivered

theorem exec_txSuccess_of_answer (cond : s.line.cond = .frame) (slot : s.line.slot = .sending (.answer a)) :
    exec .txSuccess s = .next (s.withLine { s.line.ended false with
      slot := .empty, txRun := if s.node.state = .active then 0 else s.line.txRun }).answerEnded := by
  simp only [exec, execTxSuccess, next_of_guard clear cond, slot, State.clearRun_eq, State.withLine_withLine]
  rfl

theorem exec_arbitrationLoss_of_post (slot : s.line.slot = .sending (.post p)) :
    exec .arbitrationLoss s = .next (s.setSlot (.waiting (.post p))) := by
  simp only [exec, execArbitrationLoss, State.unlessReset_of_clear _ clear, slot]

theorem exec_arbitrationLoss_of_answer (slot : s.line.slot = .sending (.answer a)) :
    exec .arbitrationLoss s = .next (s.setSlot .empty).answerEnded := by
  simp only [exec, execArbitrationLoss, State.unlessReset_of_clear _ clear, slot]

theorem exec_opportunityMissed_of_post (slot : s.line.slot = .waiting (.post p)) :
    exec .opportunityMissed s = .next s := by
  simp only [exec, execOpportunityMissed, State.unlessReset_of_clear _ clear, slot]

theorem exec_opportunityMissed_of_answer (slot : s.line.slot = .waiting (.answer a)) :
    exec .opportunityMissed s = .next (s.setSlot .empty).answerEnded := by
  have answer : s.line.slot.hasAnswer = true := by rw [slot]; rfl
  have gives : s.giveUpAnswer = (s.setSlot .empty).answerEnded := if_pos answer
  simp only [exec, execOpportunityMissed, State.unlessReset_of_clear _ clear, slot, gives]

/-- A frame that starts in GAP takes the opportunity of a WAITING answer. -/
theorem exec_frameStart_of_answer (cond : s.line.cond = .gap) (slot : s.line.slot = .waiting (.answer a)) :
    exec .frameStart s = .next (s.withLine { s.line.begun with slot := .empty }).answerEnded := by
  have answer : s.line.slot.hasAnswer = true := by rw [slot]; rfl
  have gives : (s.withLine s.line.frameBegin).giveUpAnswer =
      (s.withLine { s.line.begun with slot := .empty }).answerEnded := if_pos answer
  simp only [exec, execFrameStart, State.unlessReset_of_clear _ clear, cond, gives]

variable (first : TakenFirst)

theorem exec_collision_of_post (slot : s.line.slot = .sending (.post p)) (unsuspected : s.node.dupSuspect = false) :
    exec (.collision first) s = .next
      (((s.setSlot (.waiting (.post p))).withNode { s.node with collisionNote := true }).failAttempt 1) := by
  simp only [exec, execCollision, State.unlessReset_of_clear _ clear, slot, unsuspected, Bool.false_eq_true, if_false]

theorem exec_collision_of_answer (slot : s.line.slot = .sending (.answer a)) :
    exec (.collision first) s = .next (s.failAnswer first 1) := by
  simp only [exec, execCollision, State.unlessReset_of_clear _ clear, slot]

theorem exec_driveFailure_of_post (slot : s.line.slot = .sending (.post p)) :
    exec (.driveFailure first) s = .next ((s.setSlot (.waiting (.post p))).failAttempt 2) := by
  simp only [exec, execDriveFailure, State.unlessReset_of_clear _ clear, slot]

theorem exec_driveFailure_of_answer (slot : s.line.slot = .sending (.answer a)) :
    exec (.driveFailure first) s = .next (s.failAnswer first 2) := by
  simp only [exec, execDriveFailure, State.unlessReset_of_clear _ clear, slot]

end

end Sys2Proof.Machine

namespace Sys2Proof

open Machine

/-- Settles O45: a delivery of an own POST, and an answer that nothing waits for. -/
theorem successEmptiesSlotAndDeliversOwnPost : Obligations.SuccessEmptiesSlotAndDeliversOwnPost := by
  intro s ⟨clear, cond⟩ run
  refine ⟨fun p slot phase state => ?_, fun a slot awaited => ?_⟩
  · rw [exec_txSuccess_of_post clear cond slot, State.deliverPost_of_posting p phase (.inl state)]
    rfl
  · rw [exec_txSuccess_of_answer clear cond slot, State.answerEnded_withLine_of_none _ awaited]
    rfl

/-- Settles O46: the attempts that end outside the run, then the failures below the eighth. -/
theorem failedAttemptsKeepPostAndGiveUpAnswer : Obligations.FailedAttemptsKeepPostAndGiveUpAnswer := by
  intro s clear
  refine ⟨fun p slot => exec_arbitrationLoss_of_post clear slot, fun a slot awaited => ?_,
    fun p slot => exec_opportunityMissed_of_post clear slot, fun a slot awaited => ⟨?_, fun cond => ?_⟩,
    fun first below => ?_⟩
  · rw [exec_arbitrationLoss_of_answer clear slot, State.answerEnded_of_none (s := s.setSlot .empty) awaited]
    rfl
  · rw [exec_opportunityMissed_of_answer clear slot, State.answerEnded_of_none (s := s.setSlot .empty) awaited]
    rfl
  · rw [exec_frameStart_of_answer clear cond slot, State.answerEnded_withLine_of_none _ awaited]
    rfl
  · refine ⟨fun p slot => ⟨fun unsuspected => ?_, ?_⟩, fun a slot awaited => ?_⟩
    · rw [exec_collision_of_post clear first slot unsuspected, State.failAttempt_of_below
        (s := (s.setSlot (.waiting (.post p))).withNode { s.node with collisionNote := true }) 1 rfl below]
      rfl
    · rw [exec_driveFailure_of_post clear first slot, State.failAttempt_of_below (s := s.setSlot (.waiting (.post p))) 2 rfl below]
      rfl
    · have failed (detail : BitVec 8) : s.failAnswer first detail = { s with line := { s.line with
          slot := .empty, txRun := if s.node.state = .active then s.line.txRun + 1 else s.line.txRun } } := by
        rw [State.failAnswer_of_none first detail awaited, State.failAttempt_of_below (s := s.setSlot .empty) detail rfl below]
        rfl
      rw [exec_collision_of_answer clear first slot, exec_driveFailure_of_answer clear first slot, failed, failed]
      exact ⟨rfl, rfl⟩

/-- Settles O47: the eighth failure, of a POST and of an answer that nothing waits for. -/
theorem eighthFailureMutesNode : Obligations.EighthFailureMutesNode := by
  intro s first f clear active run slot muted
  refine ⟨fun p post => ⟨fun unsuspected => ?_, ?_⟩, fun a answer awaited => ?_⟩
  · rw [exec_collision_of_post clear first (slot.trans (congrArg _ post)) unsuspected,
      State.failAttempt_of_eighth
        (s := (s.setSlot (.waiting (.post p))).withNode { s.node with collisionNote := true }) 1 rfl active (Nat.le_of_eq run.symm)]
    rfl
  · rw [exec_driveFailure_of_post clear first (slot.trans (congrArg _ post)),
      State.failAttempt_of_eighth (s := s.setSlot (.waiting (.post p))) 2 rfl active (Nat.le_of_eq run.symm)]
    rfl
  · have failed (detail : BitVec 8) : s.failAnswer first detail = muted detail := by
      rw [State.failAnswer_of_none first detail awaited,
        State.failAttempt_of_eighth (s := s.setSlot .empty) detail rfl active (Nat.le_of_eq run.symm)]
      rfl
    rw [exec_collision_of_answer clear first (slot.trans (congrArg _ answer)),
      exec_driveFailure_of_answer clear first (slot.trans (congrArg _ answer)), failed, failed]
    exact ⟨rfl, rfl⟩

end Sys2Proof
end

section
/-! PROOFS. The effect that waits for an answer's end (R163, R164, R178): at the end itself, beside a counted failure, and
beside a recognized mark. -/

namespace Sys2Proof.Machine

variable {s : State}

/-! ### Effects that do nothing -/

theorem State.answerEnded_of_idle (idle : s.handler.awaited = .none ∨ s.handler.awaited = .closeSetup)
    (notSetup : s.node.state ≠ .setup) : s.answerEnded = s.reported := by
  rcases idle with none | closeSetup
  · rw [State.answerEnded_eq, none]
    rfl
  · exact State.answerEnded_of_closed closeSetup notSetup

theorem State.setSlot_self {slot : Slot} (same : s.line.slot = slot) : s.setSlot slot = s := by
  subst same
  rfl

/-! ### Effects that take the node out of ACTIVE -/

section
variable (effect : (∃ n, s.handler.awaited = .quiet n) ∨ s.handler.awaited = .restart) (active : s.node.state = .active)
include effect active

theorem State.answerEnded_leaves_active : s.answerEnded.node.state ≠ .active := by
  rcases effect with ⟨n, quiet⟩ | restart
  · rw [State.answerEnded_of_quiet quiet active]
    nofun
  · rw [State.answerEnded_of_restart restart (.inr (.inl active))]
    nofun

/-- Such an effect clears the slot and the run itself. -/
theorem State.answerEnded_withLine (slot : Slot) (run : Nat) :
    (s.withLine { s.line with slot := slot, txRun := run }).answerEnded = s.answerEnded := by
  rcases effect with ⟨n, quiet⟩ | restart
  · rw [State.answerEnded_of_quiet quiet active]
    exact State.answerEnded_of_quiet (s := s.withLine { s.line with slot := slot, txRun := run }) quiet active
  · rw [State.answerEnded_of_restart restart (.inr (.inl active))]
    exact State.answerEnded_of_restart (s := s.withLine { s.line with slot := slot, txRun := run }) restart
      (.inr (.inl active))

end

/-- A QUIET that ends after an entry to MUTE sets its own count. -/
theorem State.answerEnded_muteEntry_of_quiet {n : BitVec 8} (count : BitVec 8) (awaited : s.handler.awaited = .quiet n) :
    (s.muteEntry count).answerEnded = s.reported.muteEntry n :=
  State.answerEnded_of_quiet_mute (s := s.muteEntry count) awaited rfl

/-- A RESTART that ends after an entry to MUTE finds the mark hold ended. -/
theorem State.answerEnded_muteEntry_of_restart (count : BitVec 8) (awaited : s.handler.awaited = .restart) :
    (s.muteEntry count).answerEnded = (s.withLine { s.line with markHold := false }).restartEffect :=
  State.answerEnded_of_restart (s := s.muteEntry count) awaited (.inr (.inr rfl))

/-! ### A failed answer, its two reports in either order -/

section
variable (detail : BitVec 8)

theorem State.failAttempt_withHandler (h : Handler) (noAnswer : s.line.slot.hasAnswer = false) :
    (s.withHandler h).failAttempt detail = (s.failAttempt detail).withHandler h := by
  by_cases active : s.node.state = .active
  · by_cases below : s.line.txRun < 7
    · rw [State.failAttempt_of_below (s := s.withHandler h) detail noAnswer fun _ => below,
        State.failAttempt_of_below detail noAnswer fun _ => below]
      rfl
    · rw [State.failAttempt_of_eighth (s := s.withHandler h) detail noAnswer active (Nat.le_of_not_lt below),
        State.failAttempt_of_eighth detail noAnswer active (Nat.le_of_not_lt below)]
      rfl
  · rw [State.failAttempt_of_inactive (s := s.withHandler h) detail active, State.failAttempt_of_inactive detail active]

theorem State.failAttempt_ne_setup (noAnswer : s.line.slot.hasAnswer = false) (notSetup : s.node.state ≠ .setup) :
    (s.failAttempt detail).node.state ≠ .setup := by
  rcases State.failAttempt_cases detail noAnswer with ⟨-, e⟩ | ⟨-, -, e⟩ | ⟨-, -, e⟩ <;> rw [e]
  · exact notSetup
  · exact notSetup
  · nofun

variable (first : TakenFirst)

/-- Outside ACTIVE the report of the end is all there is. -/
theorem State.failAnswer_of_inactive (inactive : s.node.state ≠ .active) :
    s.failAnswer first detail = (s.setSlot .empty).answerEnded := by
  have inactive' : (s.setSlot .empty).node.state ≠ .active := inactive
  cases first with
  | answerReport =>
    rw [State.failAnswer, State.failAttempt_of_inactive detail (State.answerEnded_ne_active inactive')]
  | otherReport => rw [State.failAnswer, State.failAttempt_of_inactive detail inactive']

/-- An effect that does nothing leaves the failure. -/
theorem State.failAnswer_of_idle (idle : s.handler.awaited = .none ∨ s.handler.awaited = .closeSetup)
    (notSetup : s.node.state ≠ .setup) : s.failAnswer first detail = (s.setSlot .empty).reported.failAttempt detail := by
  cases first with
  | answerReport => rw [State.failAnswer, State.answerEnded_of_idle (s := s.setSlot .empty) idle notSetup]
  | otherReport =>
    have handler := State.handler_failAttempt (s := s.setSlot .empty) detail rfl
    have ended := State.answerEnded_of_idle (s := (s.setSlot .empty).failAttempt detail) (by rw [handler]; exact idle)
      (State.failAttempt_ne_setup (s := s.setSlot .empty) detail rfl notSetup)
    have commutes := State.failAttempt_withHandler (s := s.setSlot .empty) detail { s.handler with awaited := .none } rfl
    rw [State.failAnswer, ended, State.reported, handler]
    exact commutes.symm

/-- The report first: an effect that takes the node out of ACTIVE leaves no failure to count. -/
theorem State.failAnswer_of_left (left : (s.setSlot .empty).answerEnded.node.state ≠ .active) :
    s.failAnswer .answerReport detail = (s.setSlot .empty).answerEnded := State.failAttempt_of_inactive detail left

/-- An effect that takes the node out of ACTIVE leaves nothing of a failure below the eighth. -/
theorem State.failAnswer_of_below (effect : (∃ n, s.handler.awaited = .quiet n) ∨ s.handler.awaited = .restart)
    (active : s.node.state = .active) (below : s.line.txRun < 7) :
    s.failAnswer first detail = (s.setSlot .empty).answerEnded := by
  cases first with
  | answerReport =>
    exact State.failAnswer_of_left detail (State.answerEnded_leaves_active (s := s.setSlot .empty) effect active)
  | otherReport =>
    rw [State.failAnswer, State.failAttempt_of_below (s := s.setSlot .empty) detail rfl fun _ => below]
    exact State.answerEnded_withLine (s := s.setSlot .empty) effect active .empty _

end

/-! ### An effect at a recognized mark -/

/-- What an effect keeps of the line condition and of RESET. -/
theorem State.answerEnded_keeps (s : State) :
    s.answerEnded.line.cond = s.line.cond ∧ s.answerEnded.node.resetHeld = s.node.resetHeld := by
  rw [State.answerEnded_eq]
  cases s.handler.awaited with
  | none => exact ⟨rfl, rfl⟩
  | quiet n =>
    rw [State.carryOut, State.node_withHandler]
    cases s.node.state <;> exact ⟨rfl, rfl⟩
  | restart =>
    rw [State.carryOut_restart]
    split <;> exact ⟨rfl, rfl⟩
  | closeSetup =>
    rw [State.carryOut, State.node_withHandler]
    cases s.node.state with
    | setup => rw [State.exitSetup_listening]; exact ⟨rfl, rfl⟩
    | listen | active | mute | barred => exact ⟨rfl, rfl⟩

/-- The node at a recognized mark that has emptied the slot (R11). -/
def State.marked (s : State) : State := s.withLine (s.line.atMark .empty)

/-- An effect reads nothing of the line that a mark changes. -/
theorem State.carryOut_marked (s : State) (effect : Awaited) :
    s.marked.carryOut effect = ((s.setSlot .empty).carryOut effect).marked := by
  have state : s.marked.node.state = s.node.state := rfl
  have state' : (s.setSlot .empty).node.state = s.node.state := rfl
  cases effect with
  | none => rfl
  | quiet n =>
    rw [State.carryOut, State.carryOut, state, state']
    cases s.node.state <;> rfl
  | restart =>
    rw [State.carryOut_restart, State.carryOut_restart, state, state']
    split <;> rfl
  | closeSetup =>
    rw [State.carryOut, State.carryOut, state, state']
    cases s.node.state with
    | setup => rw [State.exitSetup_listening, State.exitSetup_listening]; rfl
    | listen | active | mute | barred => rfl

theorem State.answerEnded_marked (s : State) : s.marked.answerEnded = (s.setSlot .empty).answerEnded.marked :=
  s.reported.carryOut_marked s.handler.awaited

theorem State.marked_of_answer (answer : s.line.slot.hasAnswer = true) : s.withLine s.line.recognize = s.marked := by
  rw [Line.recognize, if_pos answer]
  rfl

theorem exec_markRecognized_of_empty (first : TakenFirst) (clear : s.node.resetHeld = false)
    (cond : s.line.cond = .longHold) (empty : s.line.slot = .empty) :
    exec (.markRecognized first) s = .next s.marked.epochInstant := by
  rw [exec_markRecognized_of_no_answer first clear cond (by rw [empty]; rfl), empty]
  rfl

theorem State.resetHeld_postingClose (s : State) (cause : CloseCause) :
    (s.postingClose cause).node.resetHeld = s.node.resetHeld := by
  by_cases phase : s.round.phase = .posting
  · rw [State.node_postingClose _ phase, Node.judged_fields]
  · rw [State.postingClose_of_not_posting _ phase]

theorem State.resetHeld_epochNodeState (s : State) : s.epochNodeState.node.resetHeld = s.node.resetHeld := by
  unfold State.epochNodeState
  cases s.node.state with
  | listen =>
    cases s.node.adoption with
    | none => dsimp only; split <;> rfl
    | silent | posted => rfl
  | mute => dsimp only; split <;> rfl
  | setup | active | barred => rfl

theorem Node.countMark_resetHeld (n : Node) : n.countMark.resetHeld = n.resetHeld := by
  unfold Node.countMark
  cases n.adoption with
  | none => dsimp only; split <;> rfl
  | silent | posted => rfl

theorem State.resetHeld_epochRound (s : State) : s.epochRound.node.resetHeld = s.node.resetHeld := by
  by_cases listen : s.node.state = .listen
  · rw [State.epochRound_of_listen listen]
    exact s.node.countMark_resetHeld
  · rw [State.epochRound_of_not_listen listen]
    rfl

/-- An instant leaves RESET as it is, and the node state unless it enters ACTIVE (R45). -/
theorem State.epochInstant_keeps (s : State) : s.epochInstant.node.resetHeld = s.node.resetHeld ∧
    (s.epochInstant.node.state = s.node.state ∨ s.epochInstant.node.state = .active) := by
  by_cases setup : s.node.state = .setup
  · rw [State.epochInstant, if_pos setup]
    exact ⟨rfl, .inl rfl⟩
  · obtain ⟨node, -⟩ := State.epochInstant_parts setup
    obtain ⟨-, -, -, -, entered⟩ := s.epochClose.epochNodeState_eq
    obtain ⟨-, -, kept, -⟩ := s.epochClose.epochNodeState.epochRound_eq
    have state : s.epochStages.node.state = s.epochClose.epochNodeState.node.state := kept
    have reset : s.epochStages.node.resetHeld = s.node.resetHeld := by
      calc s.epochStages.node.resetHeld
          = s.epochClose.epochNodeState.epochRound.node.resetHeld := rfl
        _ = s.epochClose.node.resetHeld := by rw [State.resetHeld_epochRound, State.resetHeld_epochNodeState]
        _ = s.node.resetHeld := s.resetHeld_postingClose .mark
    rw [node, state]
    exact ⟨reset, entered.imp_left (·.trans (s.state_postingClose .mark))⟩

theorem State.epochInstant_slot_empty (empty : s.line.slot = .empty) (inactive : s.epochInstant.node.state ≠ .active) :
    s.epochInstant.line.slot = .empty := by
  by_cases setup : s.node.state = .setup
  · rw [State.epochInstant, if_pos setup]
    exact empty
  · obtain ⟨node, -⟩ := State.epochInstant_parts setup
    obtain ⟨-, -, -, -, -, -, -, -, slot, -⟩ := s.epochStages_frame
    rw [State.epochInstant_line_of_not_active setup (by rw [← node]; exact inactive), slot]

end Sys2Proof.Machine

namespace Sys2Proof

open Machine

/-- Settles O48: the end of an answer by what it awaits, the two orders of a counted failure, and of a recognized mark. -/
theorem answerEndCarriesOutAwaitedEffect : Obligations.AnswerEndCarriesOutAwaitedEffect := by
  refine ⟨fun s c a clear row => ?_, fun s a c first detail clear slot row => ?_, fun s a c first clear cond row => ?_⟩
  · obtain ⟨l, empty, executed⟩ : ∃ l : Line, l.slot = .empty ∧ exec c s = .next (s.withLine l).answerEnded := by
      rcases row with ⟨rfl, cond, slot⟩ | ⟨rfl, slot⟩ | ⟨rfl, slot⟩ | ⟨rfl, cond, slot⟩
      · exact ⟨_, rfl, exec_txSuccess_of_answer clear cond slot⟩
      · exact ⟨_, rfl, exec_arbitrationLoss_of_answer clear slot⟩
      · exact ⟨_, rfl, exec_opportunityMissed_of_answer clear slot⟩
      · exact ⟨_, rfl, exec_frameStart_of_answer clear cond slot⟩
    refine ⟨_, executed, State.answerEnded_slot_empty empty, State.handler_answerEnded _, fun n quiet active => ?_,
      fun restart state => ?_, fun closeSetup setup own => ?_, fun closeSetup listen => ?_⟩
    · rw [State.answerEnded_of_quiet (s := s.withLine l) quiet active]
      exact ⟨rfl, rfl, rfl, rfl, rfl, rfl, rfl, rfl, rfl⟩
    · rw [State.answerEnded_of_restart (s := s.withLine l) restart (state.imp_right .inl)]
      exact ⟨rfl, rfl, rfl, rfl, rfl, rfl, rfl, rfl⟩
    · rw [State.answerEnded_of_closeSetup (s := s.withLine l) closeSetup setup, State.exitSetup_listening]
      exact ⟨rfl, if_neg own⟩
    · rw [State.answerEnded_of_closed (s := s.withLine l) closeSetup (by rw [State.node_withLine, listen]; nofun)]
      exact ⟨rfl, rfl, rfl⟩
  · refine ⟨_, exec_arbitrationLoss_of_answer clear slot, ?_⟩
    have executed : exec c s = .next (s.failAnswer first detail) := by
      rcases row with ⟨rfl, rfl⟩ | ⟨rfl, rfl⟩
      · exact exec_collision_of_answer clear first slot
      · exact exec_driveFailure_of_answer clear first slot
    rw [executed]
    intro noted
    refine ⟨fun inactive => congrArg _ (State.failAnswer_of_inactive detail first inactive),
      fun active below => ?_, fun active run => ?_⟩
    all_goals have notSetup : s.node.state ≠ .setup := by rw [active]; nofun
    · cases awaited : s.handler.awaited with
      | none | closeSetup =>
        have idle : s.handler.awaited = .none ∨ s.handler.awaited = .closeSetup := by simp [awaited]
        rw [State.failAnswer_of_idle detail first idle notSetup,
          State.failAttempt_of_below (s := (s.setSlot .empty).reported) detail rfl fun _ => below,
          State.answerEnded_of_idle (s := s.setSlot .empty) idle notSetup]
        rw [if_pos (by exact active)]
        rfl
      | quiet n => exact congrArg _ (State.failAnswer_of_below detail first (.inl ⟨n, awaited⟩) active below)
      | restart => exact congrArg _ (State.failAnswer_of_below detail first (.inr awaited) active below)
    · have eighth := State.failAttempt_of_eighth (s := s.setSlot .empty) detail rfl active (Nat.le_of_eq run.symm)
      refine ⟨fun n quiet => ?_, fun restart => ?_, fun idle => ?_⟩
      · cases first with
        | answerReport => exact congrArg _ (State.failAnswer_of_left detail
            (State.answerEnded_leaves_active (s := s.setSlot .empty) (.inl ⟨n, quiet⟩) active))
        | otherReport =>
          rw [State.failAnswer, eighth,
            State.answerEnded_muteEntry_of_quiet (s := (s.setSlot .empty).offer _ _ detail) 16 quiet, State.answerEnded_of_quiet (s := s.setSlot .empty) quiet active]
          rfl
      · cases first with
        | answerReport => exact congrArg _ (State.failAnswer_of_left detail
            (State.answerEnded_leaves_active (s := s.setSlot .empty) (.inr restart) active))
        | otherReport =>
          rw [State.failAnswer, eighth,
            State.answerEnded_muteEntry_of_restart (s := (s.setSlot .empty).offer _ _ detail) 16 restart, State.answerEnded_of_restart (s := s.setSlot .empty) restart (.inr (.inl active))]
          rfl
      · rw [State.failAnswer_of_idle detail first idle notSetup, State.failAttempt_of_eighth
          (s := (s.setSlot .empty).reported) detail rfl active (Nat.le_of_eq run.symm),
          State.answerEnded_of_idle (s := s.setSlot .empty) idle notSetup]
        rfl
  · obtain ⟨answer, executed⟩ : s.line.slot.hasAnswer = true ∧ exec c s = .next (s.setSlot .empty).answerEnded := by
      rcases row with ⟨rfl, slot⟩ | ⟨rfl, slot⟩
      · exact ⟨by rw [slot]; rfl, exec_arbitrationLoss_of_answer clear slot⟩
      · exact ⟨by rw [slot]; rfl, exec_opportunityMissed_of_answer clear slot⟩
    have keeps := (s.setSlot .empty).answerEnded_keeps
    obtain ⟨cond', clear'⟩ := keeps
    obtain ⟨handler, -⟩ := s.marked.epochInstant_frame
    obtain ⟨held, state⟩ := s.marked.epochInstant_keeps
    have before := exec_markRecognized_answerReport clear cond answer
    have after := exec_markRecognized_otherReport clear cond answer
    rw [State.marked_of_answer answer] at before after
    refine ⟨_, s.marked.epochInstant, executed, exec_markRecognized_of_empty (s := s.setSlot .empty) first clear cond rfl, ?_,
      fun none => ?_, fun closeSetup notSetup => ?_, fun effect => ?_⟩
    · rw [before, State.answerEnded_marked,
        exec_markRecognized_of_empty first (clear'.trans clear) (cond'.trans cond) (State.answerEnded_slot_empty rfl)]
    · rw [after, State.answerEnded_of_none (by rw [handler]; exact none)]
    · have stays : s.marked.epochInstant.node.state ≠ .setup := by
        rcases state with same | active
        · rw [same]; exact notSetup
        · rw [active]; nofun
      rw [after, State.answerEnded_of_closed (by rw [handler]; exact closeSetup) stays, State.reported, handler]
      rfl
    · rw [after, exec_opportunityMissed_of_answer (s := { s.marked.epochInstant with
        line := { s.marked.epochInstant.line with slot := .waiting (.answer a) } }) (held.trans clear) rfl]
      refine congrArg Host.Outcome.next (Eq.symm (?_ : (s.marked.epochInstant.setSlot .empty).answerEnded = _))
      by_cases active : s.marked.epochInstant.node.state = .active
      · refine State.answerEnded_withLine ?_ active .empty _
        rw [handler]
        rcases effect with quiet | restart | ⟨-, setup⟩
        · exact .inl quiet
        · exact .inr restart
        · rw [State.epochInstant, if_pos (by exact setup)] at active
          exact absurd (setup.symm.trans active) nofun
      · rw [State.setSlot_self (State.epochInstant_slot_empty (s := s.marked) rfl active)]

end Sys2Proof
end

section
/-! PROOFS. The expiries of the epoch and listen timers, and the mark claims that they make (sections 3.1, 3.2, 4.4 and 4.6). -/

namespace Sys2Proof.Machine

variable {s : State}

/-! ### A mark claim, by the line condition (R41) -/

theorem Line.quiet_iff (l : Line) : l.quiet = true ↔ l.cond = .opened ∧ l.window = false ∧ 96 ≤ l.releasedRun := by
  simp only [Line.quiet, Bool.and_eq_true, decide_eq_true_eq, Bool.not_eq_true', and_assoc]
  rfl

/-- The rows of the table of R41, for a line condition other than a LONG-HOLD that is joined. -/
theorem Line.owedCause_eq {l : Line} (busy : ¬ (l.cond = .longHold ∧ l.window = false)) : l.owedCause =
    if l.window = true then .window
    else if l.cond = .marked then .marked
    else if l.cond = .frame ∨ l.cond = .gap then .frameOrGap
    else if l.cond = .resync then .resync
    else .opened := by
  unfold Line.owedCause
  cases window : l.window with
  | true => rfl
  | false =>
    cases cond : l.cond with
    | longHold => exact absurd ⟨cond, window⟩ busy
    | gap | resync | opened | frame | marked => rfl

section
variable (sampling : s.sampling = true) (noMark : s.line.markHold = false) (notOwed : s.round.owed = none)
include sampling noMark notOwed

theorem State.claimMark_of_free : s.claimMark =
    if s.line.quiet = true then s.originateMark
    else if s.line.cond = .longHold ∧ s.line.window = false then s.joinMark
    else s.oweMark := by
  simp only [State.claimMark, sampling, noMark, notOwed, Option.isSome_none, Bool.not_true, Bool.or_self, Bool.false_eq_true,
    if_false]

end

/-! ### The expiries -/

/-- The controller with the epoch timer loaded again (R39). -/
abbrev State.reloaded (s : State) : State := s.withRound { s.round with epochTimer := some s.period }

section
variable (clear : s.node.resetHeld = false)
include clear

section
variable (running : s.round.epochTimer.isSome = true)
include running

theorem exec_epochTimerExpiry_of_active (active : s.node.state = .active) :
    exec .epochTimerExpiry s = .next s.reloaded.claimMark := by
  obtain ⟨n, timer⟩ := Option.isSome_iff_exists.mp running
  simp only [exec, execEpochTimerExpiry, State.unlessReset_of_clear _ clear, timer, active]

theorem exec_epochTimerExpiry_of_mute (mute : s.node.state = .mute) :
    exec .epochTimerExpiry s = .next s.reloaded.muteExpiry := by
  obtain ⟨n, timer⟩ := Option.isSome_iff_exists.mp running
  simp only [exec, execEpochTimerExpiry, State.unlessReset_of_clear _ clear, timer, mute]

theorem exec_epochTimerExpiry_of_listen_or_barred (state : s.node.state = .listen ∨ s.node.state = .barred) :
    exec .epochTimerExpiry s = .next s.reloaded := by
  obtain ⟨n, timer⟩ := Option.isSome_iff_exists.mp running
  rcases state with state | state <;>
    simp only [exec, execEpochTimerExpiry, State.unlessReset_of_clear _ clear, timer, state]

end

theorem exec_listenTimerExpiry_of_listen (running : s.round.listenTimer.isSome = true) (listen : s.node.state = .listen) :
    exec .listenTimerExpiry s = .next ((s.withNode { s.node with listenClaim := true }).withRound
      { s.round with listenTimer := s.listenLoad }).claimMark := by
  obtain ⟨n, timer⟩ := Option.isSome_iff_exists.mp running
  simp only [exec, execListenTimerExpiry, State.unlessReset_of_clear _ clear, timer, listen]

end

theorem State.muteExpiry_of_many (many : 2 ≤ s.round.muteCount.toNat) :
    s.muteExpiry = s.withRound { s.round with muteCount := s.round.muteCount - 1 } := if_neg (by omega)

theorem State.muteExpiry_of_last (last : s.round.muteCount = 1) :
    s.muteExpiry = (s.withRound { s.round with muteCount := 0 }).enterActive.claimMark :=
  if_pos (by rw [last]; decide)

theorem State.listenLoad_of_sampling (sampling : s.sampling = true) :
    s.listenLoad = some (Config.periodClocks s.node.straps.period * (128 + s.own.toNat) / 64) := if_pos sampling

end Sys2Proof.Machine

namespace Sys2Proof

open Machine

/-- Settles O49: the claim by the line condition, then each expiry with a claim to make and with none. -/
theorem expiriesClaimMarks : Obligations.ExpiriesClaimMarks := by
  intro s clear settled reloaded unmuted flagged
  have claims (u : State) (sampling : u.sampling = true) (noMark : u.line.markHold = false) (notOwed : u.round.owed = none) :
      u.claimMark = settled u := by
    rw [State.claimMark_of_free sampling noMark notOwed]
    simp only [settled]
    by_cases quiet : u.line.quiet = true
    · rw [if_pos quiet, if_pos (u.line.quiet_iff.mp quiet)]
      rfl
    · rw [if_neg quiet, if_neg (quiet ∘ u.line.quiet_iff.mpr)]
      by_cases joins : u.line.cond = .longHold ∧ u.line.window = false
      · rw [if_pos joins, if_pos joins]
        rfl
      · rw [if_neg joins, if_neg joins, State.oweMark, Line.owedCause_eq joins]
        rfl
  have lastExpiry (last : s.round.muteCount = 1) : s.reloaded.muteExpiry = unmuted.claimMark :=
    State.muteExpiry_of_last (s := s.reloaded) last
  have flag (sampling : s.sampling = true) : ((s.withNode { s.node with listenClaim := true }).withRound
      { s.round with listenTimer := s.listenLoad }) = flagged := by
    rw [State.listenLoad_of_sampling sampling]
    rfl
  refine ⟨fun running state => ?_, fun running mute many => ?_, fun sampling noMark notOwed =>
    ⟨fun running active => ?_, fun running mute last => ?_, fun running listen => ?_⟩, fun busy =>
    ⟨fun running active => ?_, fun running mute last => ?_, fun running listen sampling => ?_⟩⟩
  · rcases state with listen | barred | ⟨active, silent⟩
    · exact exec_epochTimerExpiry_of_listen_or_barred clear running (.inl listen)
    · exact exec_epochTimerExpiry_of_listen_or_barred clear running (.inr barred)
    · rw [exec_epochTimerExpiry_of_active clear running active, State.claimMark_eq_self (s := s.reloaded) (.inl silent)]
      rfl
  · rw [exec_epochTimerExpiry_of_mute clear running mute, State.muteExpiry_of_many (s := s.reloaded) many]
    rfl
  · rw [exec_epochTimerExpiry_of_active clear running active]
    exact congrArg _ (claims reloaded sampling noMark notOwed)
  · rw [exec_epochTimerExpiry_of_mute clear running mute, lastExpiry last]
    exact congrArg _ (claims unmuted sampling noMark notOwed)
  · rw [exec_listenTimerExpiry_of_listen clear running listen, flag sampling]
    exact congrArg _ (claims flagged sampling noMark notOwed)
  · rw [exec_epochTimerExpiry_of_active clear running active]
    exact congrArg _ (State.claimMark_eq_self (s := reloaded) (.inr busy))
  · rw [exec_epochTimerExpiry_of_mute clear running mute, lastExpiry last]
    exact congrArg _ (State.claimMark_eq_self (s := unmuted) (.inr busy))
  · rw [exec_listenTimerExpiry_of_listen clear running listen, flag sampling]
    exact congrArg _ (State.claimMark_eq_self (s := flagged) (.inr busy))

end Sys2Proof
end

section
/-! PROOFS. The sampler (section 5): the raw reading and the calibrated value, the stages and their edges, and what a completion
stores and reports. -/

namespace Sys2Proof.Machine

/-! ### The raw reading and the calibrated value (R87, R90) -/

/-- The division of R87 rounds down. -/
theorem rawReading_bounds (n : Nat) {c : Nat} (pos : 0 < c) :
    rawReading n c * (10 * (c * c)) ≤ (8000000 * n) * (8000000 * n) ∧
    (8000000 * n) * (8000000 * n) < (rawReading n c + 1) * (10 * (c * c)) := by
  have divisor : 0 < 10 * (c * c) := Nat.mul_pos (by decide) (Nat.mul_pos pos pos)
  rw [rawReading, Nat.pow_two, Nat.pow_two]
  exact ⟨Nat.div_mul_le_self _ _, Nat.lt_mul_of_div_lt (Nat.lt_succ_self _) divisor⟩

/-- At the top of the band, 8000 Hz, the raw reading is 6,400,000. -/
theorem rawReading_of_top {n c : Nat} (pos : 0 < c) (top : 8000000 * n = 8000 * c) : rawReading n c = 6400000 := by
  have square : (8000 * c) ^ 2 = 6400000 * (10 * c ^ 2) := by ring
  rw [rawReading, top, square]
  exact Nat.mul_div_cancel _ (Nat.mul_pos (by decide) (Nat.pow_pos pos))

theorem clampValue_range (v : Int) : -8388607 ≤ clampValue v ∧ clampValue v ≤ 8388607 := by
  unfold clampValue
  omega

theorem unclampedValue_of_unit_gain {cal : Cal} (raw : Nat) (unit : cal.gain.toInt = 4096) :
    unclampedValue cal raw = (raw : Int) - cal.zero.toNat := by
  rw [unclampedValue, unit]
  exact Int.mul_tdiv_cancel _ (by decide)

theorem unclampedValue_of_no_gain {cal : Cal} (raw : Nat) (none : cal.gain.toInt = 0) : unclampedValue cal raw = 0 := by
  rw [unclampedValue, none, Int.mul_zero, Int.zero_tdiv]

/-! ### The stages (R81 to R86) -/

variable {s : State}

theorem sweepFrequency_linear {p : Plan} (ordered : p.bandLow.toNat ≤ p.bandHigh.toNat) (t : Nat) :
    (sweepFrequencyTimesLength p t : Int) = p.bandLow.toNat * (exciteClocks p : Int) +
      ((p.bandHigh.toNat : Int) - p.bandLow.toNat) * t := by
  simp only [sweepFrequencyTimesLength, Nat.cast_add, Nat.cast_mul, Nat.cast_sub ordered]

theorem sweepFrequency_between {p : Plan} (ordered : p.bandLow.toNat ≤ p.bandHigh.toNat) {t : Nat} (within : t ≤ exciteClocks p) :
    p.bandLow.toNat * exciteClocks p ≤ sweepFrequencyTimesLength p t ∧
    sweepFrequencyTimesLength p t ≤ p.bandHigh.toNat * exciteClocks p := by
  refine ⟨Nat.le_add_right _ _, ?_⟩
  calc p.bandLow.toNat * exciteClocks p + (p.bandHigh.toNat - p.bandLow.toNat) * t
      ≤ p.bandLow.toNat * exciteClocks p + (p.bandHigh.toNat - p.bandLow.toNat) * exciteClocks p :=
        Nat.add_le_add_left (Nat.mul_le_mul_left _ within) _
    _ = p.bandHigh.toNat * exciteClocks p := by rw [← Nat.add_mul, Nat.add_sub_cancel' ordered]

theorem settleClocks_eq_zero_iff (p : Plan) : settleClocks p = 0 ↔ p.settle = 0 := by
  rw [settleClocks, Nat.mul_eq_zero, or_iff_left (by decide), ← BitVec.toNat_inj]
  rfl

section
variable (clear : s.node.resetHeld = false)
include clear

theorem exec_exciteEnd_of_excite (stage : s.sampler.stage = .excite) :
    exec .exciteEnd s = .next (s.withSampler s.sampler.endExcite) := next_of_guard clear stage

theorem exec_settleEnd_of_settle (stage : s.sampler.stage = .settle) :
    exec .settleEnd s = .next (s.withSampler s.sampler.enterCount) := next_of_guard clear stage

theorem exec_sensorEdge_of_count (clocks : Nat) (stage : s.sampler.stage = .count) :
    exec (.sensorEdge clocks) s = .next (s.takeEdge clocks) := next_of_guard clear stage

theorem exec_firstEdgeTimeout_of_count (stage : s.sampler.stage = .count) (started : s.sampler.work.started = false) :
    exec .firstEdgeTimeout s = .next (s.completeReading .noSignal) := next_of_guard clear ⟨stage, started⟩

theorem exec_countWindowEnd_of_count (stage : s.sampler.stage = .count) (started : s.sampler.work.started = true) :
    exec .countWindowEnd s = .next (s.completeReading .noSignal) := next_of_guard clear ⟨stage, started⟩

end

/-- Outside COUNT an edge of the coil is not counted, with RESET held or clear (R80). -/
theorem exec_sensorEdge_of_other (clocks : Nat) (stage : s.sampler.stage ≠ .count) :
    exec (.sensorEdge clocks) s = .next s := by
  have same : (if s.sampler.stage = .count then s.takeEdge clocks else s) = s := if_neg stage
  show Host.Outcome.next (s.unlessReset (if s.sampler.stage = .count then s.takeEdge clocks else s)) = _
  rw [same, State.unlessReset, ite_self]

/-! ### An edge in COUNT (R84 to R86) -/

section
variable {clocks : Nat}

theorem State.takeEdge_of_first (waiting : s.sampler.work.started = false) (early : clocks ≤ 160000) :
    s.takeEdge clocks = s.withSampler s.sampler.edgeZero := by
  have first : (!s.sampler.work.started) = true := by rw [waiting]; rfl
  exact (if_pos first).trans (if_neg (Nat.not_lt.mpr early))

theorem State.takeEdge_of_late (waiting : s.sampler.work.started = false) (late : 160000 < clocks) :
    s.takeEdge clocks = s.completeReading .noSignal := by
  have first : (!s.sampler.work.started) = true := by rw [waiting]; rfl
  exact (if_pos first).trans (if_pos late)

variable (counting : s.sampler.work.started = true)
include counting

theorem State.takeEdge_of_same_clock (same : clocks = 0) : s.takeEdge clocks = s := by
  have first : ¬ (!s.sampler.work.started) = true := by rw [counting]; nofun
  exact (if_neg first).trans (if_pos same)

variable (apart : 0 < clocks)
include apart

theorem State.takeEdge_of_counting : s.takeEdge clocks =
    if countWindow s.sampler.work.plan < (s.sampler.work.countEdge clocks).c1 + (s.sampler.work.countEdge clocks).c2 then
      s.completeReading .noSignal
    else if (s.sampler.work.countEdge clocks).edges = s.sampler.work.plan.count then
      s.completeReading (completedReading s.sampler.work.plan s.sampler.work.cal (s.sampler.work.countEdge clocks).c1
        (s.sampler.work.countEdge clocks).c2)
    else s.withSampler { s.sampler with work := s.sampler.work.countEdge clocks } := by
  have first : ¬ (!s.sampler.work.started) = true := by rw [counting]; nofun
  exact (if_neg first).trans (if_neg (Nat.ne_of_gt apart))

end

section
variable (w : Work) (clocks : Nat)

theorem Work.countEdge_edges : (w.countEdge clocks).edges = w.edges + 1 := by
  unfold Work.countEdge
  split <;> rfl

theorem Work.countEdge_total : (w.countEdge clocks).c1 + (w.countEdge clocks).c2 = w.c1 + w.c2 + clocks := by
  unfold Work.countEdge
  split
  · exact Nat.add_right_comm _ _ _
  · exact (Nat.add_assoc _ _ _).symm

/-- Edge N is counted in the second half. -/
theorem Work.countEdge_last (last : w.edges + 1 = w.plan.count) :
    (w.countEdge clocks).c1 = w.c1 ∧ (w.countEdge clocks).c2 = w.c2 + clocks := by
  have second : ¬ w.edges + 1 ≤ w.plan.count / 2 := by omega
  rw [Work.countEdge, if_neg second]
  exact ⟨rfl, rfl⟩

end

/-! ### The report of a completion (R97) -/

theorem Quality.healthy_iff (q : Quality) : q.healthy = true ↔ q = .good ∨ q = .clipped := by
  cases q <;> decide

/-- A change of health is reported, a fault before a recovery. -/
theorem State.log_offerSensor (s : State) (old new : Quality) : (s.offerSensor old new).log =
    if (old = .good ∨ old = .clipped) ∧ ¬(new = .good ∨ new = .clipped) then
      s.log.offer ⟨.sensorFault, s.round.roundCount, s.own, new.code.setWidth 8⟩
    else if ¬(old = .good ∨ old = .clipped) ∧ (new = .good ∨ new = .clipped) then
      s.log.offer ⟨.sensorRecovered, s.round.roundCount, s.own, new.code.setWidth 8⟩
    else s.log := by
  simp only [← Quality.healthy_iff, State.offerSensor, Bool.and_eq_true, Bool.not_eq_true']
  cases old.healthy <;> cases new.healthy <;> rfl

end Sys2Proof.Machine

namespace Sys2Proof

open Machine

/-- Settles O31: both divisions by their bounds, the clamp by cases. -/
theorem rawReadingAndCalibratedValue : Obligations.RawReadingAndCalibratedValue := by
  refine ⟨⟨fun n c pos => rawReading_bounds n pos, by decide +kernel, fun n c pos top => rawReading_of_top pos top⟩,
    fun cal raw => ?_⟩
  intro product v
  obtain ⟨sign, atMost, beyond⟩ := tdiv_rounds_toward_zero product (n := 4096) (by decide)
  obtain ⟨low, high⟩ := clampValue_range v
  refine ⟨sign, (Nat.mul_comm _ _).trans_le atMost, beyond.trans_eq (Nat.mul_comm _ _), fun above => ?_, fun below => ?_,
    fun low high => (clampValue_eq_self_iff v).mpr (by omega), BitVec.toInt_ofInt_eq_self (by decide) (by omega) (by omega),
    by omega, unclampedValue_of_unit_gain raw, unclampedValue_of_no_gain raw⟩
  · unfold clampValue
    omega
  · unfold clampValue
    omega

/-- Settles O33: the lengths of the stages, their ends, and the edges that COUNT takes. -/
theorem samplerStagesAndEdges : Obligations.SamplerStagesAndEdges := by
  refine ⟨fun p => ⟨fun sweep => ?_, fun pluck pos => ?_, fun low high pluck => ?_, fun low high pluck => ?_,
    fun _ ordered t within => ⟨sweepFrequency_linear ordered t, sweepFrequency_between ordered within⟩⟩,
    fun s clear => ⟨fun stage settle => ?_, fun stage settle => ?_, fun stage => ?_⟩, fun s clocks clear stage => ?_,
    fun s clocks stage => exec_sensorEdge_of_other clocks stage⟩
  · rw [exciteClocks, sweep]
    rfl
  · rw [exciteClocks, if_pos pluck]
    exact ⟨Nat.div_mul_le_self _ _, Nat.lt_mul_of_div_lt (Nat.lt_succ_self _) pos⟩
  · rw [exciteClocks, if_pos pluck, low, high]
    decide +kernel
  · rw [exciteClocks, if_pos pluck, low, high]
    decide +kernel
  · have waits : ¬ settleClocks s.sampler.work.plan = 0 := mt (settleClocks_eq_zero_iff _).mp settle
    rw [exec_exciteEnd_of_excite clear stage, Sampler.endExcite, if_neg waits]
    rfl
  · have passes : settleClocks s.sampler.work.plan = 0 := (settleClocks_eq_zero_iff _).mpr settle
    rw [exec_exciteEnd_of_excite clear stage, Sampler.endExcite, if_pos passes]
    rfl
  · exact exec_settleEnd_of_settle clear stage
  · intro w c
    rw [exec_sensorEdge_of_count clear clocks stage]
    refine ⟨fun waiting early => ?_, fun counting same => ?_, fun counting apart within more => ?_⟩
    · rw [State.takeEdge_of_first waiting early]
      rfl
    · rw [State.takeEdge_of_same_clock counting same]
    · have total := w.countEdge_total clocks
      have inside : ¬ countWindow w.plan < (w.countEdge clocks).c1 + (w.countEdge clocks).c2 := by
        rw [total]
        exact Nat.not_lt.mpr within
      have unfinished : ¬ (w.countEdge clocks).edges = w.plan.count := by
        rw [w.countEdge_edges]
        omega
      rw [State.takeEdge_of_counting counting apart, if_neg inside, if_neg unfinished]
      rfl

/-- Settles O34: the five ways in which a count completes, each the completion with its reading. -/
theorem completionStoresReadingAndReportsHealth : Obligations.CompletionStoresReadingAndReportsHealth := by
  intro s c r clear stage w window completes
  have executed : exec c s = .next (s.completeReading r) := by
    rcases completes with ⟨rfl, waiting, rfl⟩ | ⟨rfl, counting, rfl⟩ | ⟨clocks, rfl, waiting, late, rfl⟩ |
      ⟨clocks, rfl, counting, apart, beyond, rfl⟩ | ⟨clocks, rfl, counting, apart, within, last, rfl⟩
    · exact exec_firstEdgeTimeout_of_count clear stage waiting
    · exact exec_countWindowEnd_of_count clear stage counting
    · rw [exec_sensorEdge_of_count clear clocks stage, State.takeEdge_of_late waiting late]
    · rw [exec_sensorEdge_of_count clear clocks stage, State.takeEdge_of_counting counting apart, if_pos]
      rw [Work.countEdge_total]
      exact beyond
    · obtain ⟨c1, c2⟩ := w.countEdge_last clocks last
      rw [exec_sensorEdge_of_count clear clocks stage, State.takeEdge_of_counting counting apart, if_neg, if_pos, c1, c2]
      · rw [Work.countEdge_edges]
        exact last
      · rw [Work.countEdge_total]
        exact Nat.not_lt.mpr within
  obtain ⟨changed, -⟩ := s.completeReading_eq r
  have sampler : (s.completeReading r).sampler =
      { s.sampler with stage := .idle, work := Work.cleared, finished := some r, lastOwn := r.quality } := by
    rw [changed]
    rfl
  refine ⟨_, executed, ?_⟩
  rw [sampler]
  exact ⟨rfl, rfl, rfl, rfl, changed, State.log_offerSensor _ _ _⟩

end Sys2Proof
end

section
/-! PROOFS. The aux channel (sections 6.2 and 6.3): its edges in each stage, the eighth period, and the edge timer. -/

namespace Sys2Proof.Machine

/-! ### An edge of the AUX input, by stage and level (R104, R106) -/

section
variable {a : Aux} {rising : Bool} {clocks : Nat}

theorem Aux.takeEdge_of_same_level (same : a.pin = rising) : a.takeEdge rising clocks = a := if_pos same.symm

theorem Aux.takeEdge_of_idle (idle : a.stage = .idle) : a.takeEdge rising clocks = { a with pin := rising } := by
  by_cases same : rising = a.pin
  · subst same
    exact if_pos rfl
  · rw [Aux.takeEdge, if_neg same, idle]

variable (measuring : a.stage = .measuring) (edge : a.pin ≠ rising)
include measuring edge

theorem Aux.takeEdge_of_timely (apart : 1 ≤ clocks) (timely : clocks ≤ 400000) :
    a.takeEdge rising clocks = a.accumulate rising clocks := by
  rw [Aux.takeEdge, if_neg edge.symm, measuring]
  exact (if_neg (Nat.ne_of_gt apart)).trans (if_neg (Nat.not_lt.mpr timely))

theorem Aux.takeEdge_of_late (late : 400000 < clocks) :
    a.takeEdge rising clocks = { a.complete (stuckResult a.pin) with pin := rising } := by
  rw [Aux.takeEdge, if_neg edge.symm, measuring]
  exact (if_neg (Nat.ne_of_gt (Nat.zero_lt_of_lt late))).trans (if_pos late)

end

/-! ### What a timely edge accumulates (R105) -/

section
variable (a : Aux) (clocks : Nat)

theorem Aux.accumulate_falling_of_waiting (waiting : a.started = false) :
    a.accumulate false clocks = { a with pin := false, edgeTimer := some 400000 } := by
  rw [Aux.accumulate, if_neg Bool.false_ne_true, waiting, if_neg Bool.false_ne_true]
  rfl

theorem Aux.accumulate_falling_of_started (started : a.started = true) : a.accumulate false clocks =
    { a with pin := false, edgeTimer := some 400000, high := a.high + clocks, openHigh := clocks } := by
  rw [Aux.accumulate, if_neg Bool.false_ne_true, if_pos started]
  rfl

theorem Aux.accumulate_rising_of_waiting (waiting : a.started = false) :
    a.accumulate true clocks = { a with pin := true, edgeTimer := some 400000, started := true } := by
  have first : (!a.started) = true := by rw [waiting]; rfl
  rw [Aux.accumulate, if_pos rfl, if_pos first]
  rfl

/-- The channel with one more period timed. -/
def Aux.timed (a : Aux) (clocks : Nat) : Aux := { a with pin := true, edgeTimer := some 400000 }.addPeriod clocks

variable (started : a.started = true)
include started

theorem Aux.accumulate_rising_of_more (more : a.edgeCount + 1 ≠ 8) : a.accumulate true clocks = a.timed clocks := by
  have first : ¬ (!a.started) = true := by rw [started]; nofun
  rw [Aux.accumulate, if_pos rfl, if_neg first]
  exact if_neg more

/-- The eighth period completes the measurement. -/
theorem Aux.accumulate_rising_of_eighth (eighth : a.edgeCount = 7) : a.accumulate true clocks =
    (a.timed clocks).complete (timedResult a.high (a.total + (a.openHigh + clocks)) (max a.longest (a.openHigh + clocks))
      (min a.shortest (a.openHigh + clocks))) := by
  have first : ¬ (!a.started) = true := by rw [started]; nofun
  have complete : (a.timed clocks).edgeCount = 8 := congrArg (· + 1) eighth
  have extremes : (a.timed clocks).longest = max a.longest (a.openHigh + clocks) ∧
      (a.timed clocks).shortest = min a.shortest (a.openHigh + clocks) := by
    have later : ¬ a.edgeCount = 0 := by omega
    exact ⟨if_neg later, if_neg later⟩
  obtain ⟨longest, shortest⟩ := extremes
  rw [Aux.accumulate, if_pos rfl, if_neg first, ← longest, ← shortest]
  exact if_pos complete

end

/-- The duty H·16384/T is rounded down (R107). -/
theorem auxDuty_bounds {high total : Nat} (less : high < total) :
    (auxDuty high total).toNat * total ≤ high * 16384 ∧ high * 16384 < ((auxDuty high total).toNat + 1) * total := by
  have small : high * 16384 / total < 16384 := Nat.div_lt_of_lt_mul (by omega)
  have duty : (auxDuty high total).toNat = high * 16384 / total := by
    rw [auxDuty, BitVec.toNat_ofNat, Nat.min_eq_right (by omega), Nat.mod_eq_of_lt small]
  rw [duty]
  exact ⟨Nat.div_mul_le_self _ _, Nat.lt_mul_of_div_lt (Nat.lt_succ_self _) (Nat.zero_lt_of_lt less)⟩

/-! ### The rows -/

section
variable {s : State}

theorem exec_auxEdge_of_clear (rising : Bool) (clocks : Nat) (clear : s.node.resetHeld = false) :
    exec (.auxEdge rising clocks) s = .next (s.withAux (s.aux.takeEdge rising clocks)) := by
  simp only [exec, execAuxEdge, clear, Bool.false_eq_true, if_false]

/-- While RESET is held the level alone follows the input (R109). -/
theorem exec_auxEdge_of_held (rising : Bool) (clocks : Nat) (held : s.node.resetHeld = true) :
    exec (.auxEdge rising clocks) s = .next (s.withAux { s.aux with pin := rising }) := by
  simp only [exec, execAuxEdge, held, if_true]

theorem exec_auxEdgeTimeout_of_measuring (clear : s.node.resetHeld = false) (measuring : s.aux.stage = .measuring) :
    exec .auxEdgeTimeout s = .next (s.withAux (s.aux.complete (stuckResult s.aux.pin))) := next_of_guard clear measuring

end

end Sys2Proof.Machine

namespace Sys2Proof

open Machine

/-- Settles O35: the timely edges, the eighth period with its duty, the edge timer, and the edges that measure nothing. -/
theorem auxChannelMeasuresEightPeriods : Obligations.AuxChannelMeasuresEightPeriods := by
  refine ⟨fun s clocks clear measuring apart timely => ?_, fun s clear measuring =>
    ⟨fun clocks apart timely low started seventh => ?_, exec_auxEdgeTimeout_of_measuring clear measuring⟩,
    fun s rising clocks => ⟨fun clear same => ?_, fun clear measuring edge late => ?_, fun quiet => ?_⟩⟩
  · intro a period
    have falls (high : a.pin = true) :
        exec (.auxEdge false clocks) s = .next (s.withAux (a.accumulate false clocks)) := by
      rw [exec_auxEdge_of_clear false clocks clear, Aux.takeEdge_of_timely measuring (by rw [high]; nofun) apart timely]
    have rises (low : a.pin = false) :
        exec (.auxEdge true clocks) s = .next (s.withAux (a.accumulate true clocks)) := by
      rw [exec_auxEdge_of_clear true clocks clear, Aux.takeEdge_of_timely measuring (by rw [low]; nofun) apart timely]
    refine ⟨fun high waiting => ?_, fun high started => ?_, fun low waiting => ?_, fun low started more => ?_⟩
    · rw [falls high, a.accumulate_falling_of_waiting clocks waiting]
      rfl
    · rw [falls high, a.accumulate_falling_of_started clocks started]
      rfl
    · rw [rises low, a.accumulate_rising_of_waiting clocks waiting]
      rfl
    · rw [rises low, a.accumulate_rising_of_more clocks started more]
      rfl
  · intro period longest shortest
    have executed : exec (.auxEdge true clocks) s = .next (s.withAux ((s.aux.timed clocks).complete
        (timedResult s.aux.high (s.aux.total + period) longest shortest))) := by
      rw [exec_auxEdge_of_clear true clocks clear, Aux.takeEdge_of_timely measuring (by rw [low]; nofun) apart timely,
        s.aux.accumulate_rising_of_eighth clocks started seventh]
    exact ⟨_, _, executed, rfl, rfl, rfl, rfl, rfl, auxDuty_bounds⟩
  · rw [exec_auxEdge_of_clear rising clocks clear, Aux.takeEdge_of_same_level same]
    rfl
  · rw [exec_auxEdge_of_clear rising clocks clear, Aux.takeEdge_of_late measuring edge late]
    rfl
  · cases held : s.node.resetHeld with
    | true => exact exec_auxEdge_of_held rising clocks held
    | false =>
      have idle : s.aux.stage = .idle := quiet.resolve_left (ne_true_of_eq_false held)
      rw [exec_auxEdge_of_clear rising clocks held, Aux.takeEdge_of_idle idle]
      rfl

end Sys2Proof
end

section
/-! PROOFS. The line code (sections 1.2 and 1.5): two cells driven together, the first differing bit of two frames, and the
disagreements that a sender reads back. -/

namespace Sys2Proof.Machine

/-! ### One cell -/

theorem readCell_cellOf (a : Bool) : readCell (cellOf a) = .bit a := by cases a <;> rfl

/-- A 0 prevails over a 1 (R2). -/
theorem superpose_cellOf (a b : Bool) : superpose (cellOf a) (cellOf b) = cellOf (a && b) := by
  cases a <;> cases b <;> rfl

/-- A sender of a 1 reads a 0 of another station back, and no other disagreement shows between two senders (R15). -/
theorem readBack_cellOf (a b : Bool) :
    readBack (cellOf a) (cellOf (a && b)) = if a = true ∧ b = false then some .readsHeld else none := by
  cases a <;> cases b <;> rfl

/-! ### Two frames: their first differing bit -/

/-- The number that bits make, the first bit the most significant. -/
def bitsValue : List Bool → Nat
  | [] => 0
  | b :: bits => b.toNat * 2 ^ bits.length + bitsValue bits

theorem bitsValue_octetBits (o : Byte) : bitsValue (octetBits o) = o.toNat := by
  decide +kernel +revert

theorem bitsValue_lt (bits : List Bool) : bitsValue bits < 2 ^ bits.length := by
  induction bits with
  | nil => decide
  | cons b bits ih =>
    have bit : b.toNat ≤ 1 := b.toNat_le
    rw [bitsValue, List.length_cons, Nat.pow_succ]
    nlinarith

/-- Of two numbers with as many bits the lesser has the 0 where they first differ. -/
theorem exists_first_difference : ∀ low high : List Bool, low.length = high.length → bitsValue low < bitsValue high →
    ∃ common lows highs, low = common ++ false :: lows ∧ high = common ++ true :: highs
  | [], [], _, less => absurd less (Nat.lt_irrefl _)
  | l :: low, h :: high, length, less => by
    have length' : low.length = high.length := Nat.succ.inj length
    have below := bitsValue_lt high
    rw [bitsValue, bitsValue, length'] at less
    cases l <;> cases h
    case false.true => exact ⟨[], low, high, rfl, rfl⟩
    case true.false =>
      rw [Bool.toNat_true, Bool.toNat_false] at less
      omega
    all_goals
      obtain ⟨common, lows, highs, rfl, rfl⟩ := exists_first_difference low high length' (Nat.lt_of_add_lt_add_left less)
      exact ⟨_ :: common, lows, highs, rfl, rfl⟩

theorem length_octetBits (o : Byte) : (octetBits o).length = 8 := rfl

/-- The first differing bit of two octets. -/
theorem octetBits_first_difference {x y : Byte} (less : x.toNat < y.toNat) : ∃ common lows highs,
    octetBits x = common ++ false :: lows ∧ octetBits y = common ++ true :: highs ∧ common.length < 8 := by
  rw [← bitsValue_octetBits x, ← bitsValue_octetBits y] at less
  obtain ⟨common, lows, highs, low, high⟩ := exists_first_difference (octetBits x) (octetBits y)
    ((length_octetBits x).trans (length_octetBits y).symm) less
  have length := length_octetBits x
  rw [low, List.length_append, List.length_cons] at length
  exact ⟨common, lows, highs, low, high, by omega⟩

theorem length_flatMap_octetBits (octets : List Byte) : (octets.flatMap octetBits).length = 8 * octets.length := by
  induction octets with
  | nil => rfl
  | cons o octets ih =>
    rw [List.flatMap_cons, List.length_append, ih, List.length_cons, Nat.mul_add, Nat.add_comm]
    rfl

section
variable (sent : List Bool) (lows highs : List Bool)

/-- Up to the first difference and there, the line carries the cells of the frame with the 0. -/
theorem zipWith_superpose_first_difference :
    List.zipWith superpose (((sent ++ false :: lows).map cellOf).take (sent.length + 1))
        (((sent ++ true :: highs).map cellOf).take (sent.length + 1)) ++
      ((sent ++ false :: lows).map cellOf).drop (sent.length + 1) = (sent ++ false :: lows).map cellOf := by
  have taken (b : Bool) (rest : List Bool) :
      ((sent ++ b :: rest).map cellOf).take (sent.length + 1) = sent.map cellOf ++ [cellOf b] := by
    rw [← List.map_take, List.take_length_add_append]
    simp
  have together : List.zipWith superpose (((sent ++ false :: lows).map cellOf).take (sent.length + 1))
      (((sent ++ true :: highs).map cellOf).take (sent.length + 1)) =
      ((sent ++ false :: lows).map cellOf).take (sent.length + 1) := by
    rw [taken, taken, List.zipWith_append rfl, zipWith_superpose_self]
    rfl
  rw [together, List.take_append_drop]

/-- The sender of the 1 stops at the first difference (R15). -/
theorem attemptOutcome_first_difference :
    attemptOutcome 0 (sent ++ true :: highs) ((sent ++ false :: lows).map cellOf) =
      if sent.length < 8 then .arbitrationLoss else .collision := by
  rw [List.map_append, attemptOutcome_sent_append, Nat.zero_add]
  rfl

end

/-! ### The disagreements of one cell (R15) -/

section
variable (n : Nat) (b : Bool) (own : List Bool) (c : CellLevels) (line : List CellLevels)

theorem attemptOutcome_of_q1 (released : c.q1 = false) : attemptOutcome n (b :: own) (c :: line) = .driveFailure := by
  rw [attemptOutcome, released]
  rfl

theorem attemptOutcome_of_readsReleased (held : c.q1 = true) (disagrees : readBack (cellOf b) c = some .readsReleased) :
    attemptOutcome n (b :: own) (c :: line) = .driveFailure := by
  rw [attemptOutcome, held, disagrees]
  rfl

theorem attemptOutcome_of_readsHeld (held : c.q1 = true) (disagrees : readBack (cellOf b) c = some .readsHeld) :
    attemptOutcome n (b :: own) (c :: line) = if n < 8 then .arbitrationLoss else .collision := by
  rw [attemptOutcome, held, disagrees]
  rfl

theorem attemptOutcome_of_q4 (held : c.q1 = true) (agrees : readBack (cellOf b) c = none) (late : c.q4 = true) :
    attemptOutcome n (b :: own) (c :: line) = .driveFailure := by
  rw [attemptOutcome, held, agrees, late]
  rfl

end

theorem readBack_zero (c : CellLevels) (released : c.q2 = false ∨ c.q3 = false) :
    readBack (cellOf false) c = some .readsReleased := by
  rcases c with ⟨_, q2, q3, _⟩
  cases q2 <;> cases q3 <;> simp_all [readBack, cellOf]

theorem readBack_one (c : CellLevels) (held : c.q2 = true ∨ c.q3 = true) :
    readBack (cellOf true) c = some .readsHeld := by
  rcases c with ⟨_, q2, q3, _⟩
  cases q2 <;> cases q3 <;> simp_all [readBack, cellOf]

end Sys2Proof.Machine

namespace Sys2Proof

open Machine

/-- Settles O5: the first differing bit of the two frames decides, and what one cell shows its sender. -/
theorem heldQuartersDecideArbitration : Obligations.HeldQuartersDecideArbitration := by
  refine ⟨fun a b => ?_, fun same x y as bs less => ?_, fun octets => ?_, fun before after b c later => ?_⟩
  · rw [superpose_cellOf, readCell_cellOf, readCell_cellOf, readBack_cellOf]
    cases a <;> cases b <;> decide
  · obtain ⟨common, lows, highs, xBits, yBits, short⟩ := octetBits_first_difference less
    have sentLength : (same.flatMap octetBits ++ common).length = 8 * same.length + common.length := by
      rw [List.length_append, length_flatMap_octetBits]
    have lowBits : (same ++ x :: as).flatMap octetBits =
        (same.flatMap octetBits ++ common) ++ false :: (lows ++ as.flatMap octetBits) := by
      rw [List.flatMap_append, List.flatMap_cons, xBits]
      simp only [List.append_assoc, List.cons_append]
    have highBits : (same ++ y :: bs).flatMap octetBits =
        (same.flatMap octetBits ++ common) ++ true :: (highs ++ bs.flatMap octetBits) := by
      rw [List.flatMap_append, List.flatMap_cons, yBits]
      simp only [List.append_assoc, List.cons_append]
    refine ⟨8 * same.length + common.length, Nat.le_add_right _ _, Nat.add_lt_add_left short _, ?_⟩
    intro low high line
    have lineIsLow : line = low := by
      simp only [line, low, high, frameCells, lowBits, highBits, ← sentLength]
      exact zipWith_superpose_first_difference _ _ _
    refine ⟨?_, lineIsLow, ?_, ?_⟩
    · simp only [low, high, frameCells, lowBits, highBits, ← sentLength, ← List.map_take, List.take_left]
    · rw [lineIsLow]
      simp only [low, frameCells, lowBits, highBits]
      rw [attemptOutcome_first_difference, sentLength]
      cases same with
      | nil => exact (if_pos (by simpa using short)).trans (if_pos rfl).symm
      | cons o same => exact (if_neg (by simp; omega)).trans (if_neg (by simp)).symm
    · rw [lineIsLow]
      exact attemptOutcome_sent 0 _
  · intro line
    have same : line = frameCells octets := zipWith_superpose_self _
    rw [same]
    exact ⟨rfl, attemptOutcome_sent 0 _⟩
  · intro outcome
    have reached : outcome = attemptOutcome before.length (b :: after) (c :: later) := by
      simp only [outcome]
      rw [attemptOutcome_sent_append, Nat.zero_add]
    rw [reached]
    refine ⟨attemptOutcome_of_q1 _ _ _ _ _, fun held zero released => ?_, fun held one reads => ?_, fun late => ?_⟩
    · subst zero
      exact attemptOutcome_of_readsReleased _ _ _ _ _ held (readBack_zero c released)
    · subst one
      exact attemptOutcome_of_readsHeld _ _ _ _ _ held (readBack_one c reads)
    · subst late
      exact attemptOutcome_of_q4 _ _ _ _ _ rfl (by cases b <;> rfl) rfl

end Sys2Proof
end

section
/-! PROOFS. The judgment of frames (sections 2.1 to 2.6): the comparison at a frame's end, then each kind by its length, and
every frame as sent. -/

namespace Sys2Proof.Machine

/-! ### The comparison at the end of a frame (R23) -/

section
variable {body : List Byte} {hi lo : Byte} (frame : Frame)

theorem judgeCheck_of_ne (other : hi ++ lo ≠ check body) : judgeCheck body hi lo frame = .malformed .checkMismatch :=
  if_neg other.symm

theorem judgeCheck_of_eq (same : hi ++ lo = check body) : judgeCheck body hi lo frame = .valid frame := if_pos same.symm

end

/-! ### The fields of octets -/

theorem toNat_kind_append (kind : BitVec 2) (station : BitVec 6) :
    (kind ++ station : Byte).toNat = 64 * kind.toNat + station.toNat := by
  decide +kernel +revert

theorem setWidth_kind_append (kind : BitVec 2) (station : BitVec 6) : (kind ++ station : Byte).setWidth 6 = station := by
  decide +kernel +revert

/-- A first octet below 64 is its station number under kind 0. -/
theorem zero_append_setWidth {o : Byte} (post : o.toNat < 64) : (0#2 ++ o.setWidth 6 : Byte) = o := by
  refine BitVec.eq_of_toNat_eq ?_
  rw [toNat_kind_append, BitVec.toNat_setWidth, Nat.mod_eq_of_lt (by omega)]
  simp

theorem extract_station (o : Byte) : o.extractLsb' 0 6 = o.setWidth 6 := firstOctetSource_eq o

theorem station_eq_zero_iff (o : Byte) : o.extractLsb' 0 6 = 0#6 ↔ o.toNat % 64 = 0 := by
  rw [extract_station, ← BitVec.toNat_inj, BitVec.toNat_setWidth]
  rfl

/-! ### First octets that no frame has (R29) -/

theorem judge_of_kindCode {o : Byte} (rest : List Byte) (invalid : 192 ≤ o.toNat) :
    judge (o :: rest) = .malformed .kindCode := by
  have kind : firstOctetKind o = .invalid := by
    rw [firstOctetKind_eq, if_neg (by omega), if_neg (by omega), if_neg (by omega)]
  rw [judge, kind]

theorem judge_of_postSource {o : Byte} (rest : List Byte) (outside : o.toNat = 0 ∨ o.toNat = 63) :
    judge (o :: rest) = .malformed .postSource := by
  have kind : firstOctetKind o = .post := by rw [firstOctetKind_eq, if_pos (by omega)]
  have source : firstOctetSource o = 0#6 ∨ firstOctetSource o = 63#6 := by
    simp only [firstOctetSource_eq, ← BitVec.toNat_inj, BitVec.toNat_setWidth]
    rcases outside with e | e <;> rw [e] <;> decide
  rw [judge, kind]
  exact if_pos source

/-! ### Lists by their length -/

section
variable {tail : List Byte} {n : Nat}

/-- What follows a field, when the field and what follows it are given. -/
theorem take_drop_field {field after : List Byte} (length : field.length = n) :
    (field ++ after).take n = field ∧ (field ++ after).drop n = after :=
  ⟨List.take_left' length, List.drop_left' length⟩

theorem drop_short (short : tail.length < n + 2) : tail.drop n = [] ∨ ∃ a, tail.drop n = [a] := by
  have length := List.length_drop (i := n) (l := tail)
  match rest : tail.drop n with
  | [] => exact .inl rfl
  | [a] => exact .inr ⟨a, rfl⟩
  | a :: b :: more =>
    rw [rest, List.length_cons, List.length_cons] at length
    omega

end

/-! ### ANSWER (R28) -/

section
variable (o : Byte)

theorem judgeAnswer_of_head {rest : List Byte} (short : rest.length < 3) : judgeAnswer o rest = .incomplete := by
  match rest, short with
  | [], _ | [_], _ | [_, _], _ => rfl

variable {code status len : Byte}

theorem judgeAnswer_of_long (tail : List Byte) (long : 24 < len.toNat) :
    judgeAnswer o (code :: status :: len :: tail) = .malformed .payloadLength := if_pos long

variable (fits : len.toNat ≤ 24)
include fits

theorem judgeAnswer_of_short {tail : List Byte} (short : tail.length < len.toNat + 2) :
    judgeAnswer o (code :: status :: len :: tail) = .incomplete := by
  refine (if_neg (Nat.not_lt.mpr fits)).trans ?_
  rcases drop_short short with e | ⟨a, e⟩ <;> rw [e]

theorem judgeAnswer_of_whole {payload : List Byte} (hi lo : Byte) (rest : List Byte) (length : payload.length = len.toNat) :
    judgeAnswer o (code :: status :: len :: (payload ++ hi :: lo :: rest)) =
      judgeCheck (o :: code :: status :: len :: payload) hi lo (.answer ⟨o.setWidth 6, code, status, payload⟩) := by
  obtain ⟨taken, dropped⟩ := take_drop_field (after := hi :: lo :: rest) length
  refine (if_neg (Nat.not_lt.mpr fits)).trans ?_
  rw [dropped, taken, firstOctetSource_eq]

end

/-! ### REQUEST (R26) -/

section
variable (o : Byte) {o2 : Byte}

theorem judgeRequest_of_target (rest : List Byte) (zero : o2.toNat % 64 = 0) :
    judgeRequest o (o2 :: rest) = .malformed .requestTarget := if_pos ((station_eq_zero_iff o2).mpr zero)

variable (target : o2.toNat % 64 ≠ 0)
include target

theorem judgeRequest_of_head {rest : List Byte} (short : rest.length < 2) :
    judgeRequest o (o2 :: rest) = .incomplete := by
  refine (if_neg (mt (station_eq_zero_iff o2).mp target)).trans ?_
  match rest, short with
  | [], _ | [_], _ => rfl

variable {code len : Byte}

theorem judgeRequest_of_long (tail : List Byte) (long : 6 < len.toNat) :
    judgeRequest o (o2 :: code :: len :: tail) = .malformed .argumentLength :=
  (if_neg (mt (station_eq_zero_iff o2).mp target)).trans (if_pos long)

variable (fits : len.toNat ≤ 6)
include fits

theorem judgeRequest_of_short {tail : List Byte} (short : tail.length < len.toNat + 2) :
    judgeRequest o (o2 :: code :: len :: tail) = .incomplete := by
  refine (if_neg (mt (station_eq_zero_iff o2).mp target)).trans ((if_neg (Nat.not_lt.mpr fits)).trans ?_)
  rcases drop_short short with e | ⟨a, e⟩ <;> rw [e]

theorem judgeRequest_of_whole {args : List Byte} (hi lo : Byte) (rest : List Byte) (length : args.length = len.toNat) :
    judgeRequest o (o2 :: code :: len :: (args ++ hi :: lo :: rest)) =
      judgeCheck (o :: o2 :: code :: len :: args) hi lo (.request ⟨o.setWidth 6, o2.setWidth 6, code, args⟩) := by
  obtain ⟨taken, dropped⟩ := take_drop_field (after := hi :: lo :: rest) length
  refine (if_neg (mt (station_eq_zero_iff o2).mp target)).trans ((if_neg (Nat.not_lt.mpr fits)).trans ?_)
  rw [dropped, taken, firstOctetSource_eq, extract_station]

end

/-! ### POST (R24) -/

/-- Octet 3 as its fields. -/
theorem flags_fields (group code : BitVec 3) (aux alarm : Bool) :
    (group ++ code ++ BitVec.ofBool aux ++ BitVec.ofBool alarm : Byte).extractLsb' 5 3 = group ∧
    (group ++ code ++ BitVec.ofBool aux ++ BitVec.ofBool alarm : Byte).extractLsb' 2 3 = code ∧
    (group ++ code ++ BitVec.ofBool aux ++ BitVec.ofBool alarm : Byte).getLsbD 1 = aux ∧
    (group ++ code ++ BitVec.ofBool aux ++ BitVec.ofBool alarm : Byte).getLsbD 0 = alarm := by
  decide +kernel +revert

theorem fields_flags (flags : Byte) : (flags.extractLsb' 5 3 ++ flags.extractLsb' 2 3 ++ BitVec.ofBool (flags.getLsbD 1) ++
    BitVec.ofBool (flags.getLsbD 0) : Byte) = flags := by
  decide +kernel +revert

theorem toNat_qualityField (flags : Byte) : (flags.extractLsb' 2 3).toNat = flags.toNat / 4 % 8 := by
  decide +kernel +revert

theorem auxBit_iff (flags : Byte) : flags.getLsbD 1 = true ↔ flags.toNat / 2 % 2 = 1 := by
  decide +kernel +revert

/-- A reading with a value, read back from its quality code. -/
theorem valuedReading_code {r : Reading} {v : BitVec 24} (value : r.value = some v) :
    valuedReading r.quality.code.toNat v = r ∧ r.quality.code.toNat < 4 := by
  have low (q : Quality) (carries : q = .good ∨ q = .clipped ∨ q = .unstable ∨ q = .outOfBand) : q.code.toNat < 4 := by
    rcases carries with rfl | rfl | rfl | rfl <;> decide
  cases r <;> cases value <;> exact ⟨rfl, low _ (by simp [Reading.quality])⟩

/-- A reading without a value, read back from its quality code. -/
theorem unvaluedReading_code {r : Reading} (value : r.value = none) :
    unvaluedReading r.quality.code.toNat = r ∧ 4 ≤ r.quality.code.toNat ∧ r.quality.code.toNat ≠ 7 := by
  cases r <;> cases value <;> exact ⟨rfl, by decide, by decide⟩

theorem code_valuedReading (code : BitVec 3) (v : BitVec 24) (valued : code.toNat < 4) :
    (valuedReading code.toNat v).quality.code = code ∧ (valuedReading code.toNat v).value = some v := by
  have cases : code = 0 ∨ code = 1 ∨ code = 2 ∨ code = 3 := by decide +revert
  rcases cases with rfl | rfl | rfl | rfl <;> exact ⟨rfl, rfl⟩

theorem code_unvaluedReading (code : BitVec 3) (unvalued : 4 ≤ code.toNat) (known : code.toNat ≠ 7) :
    (unvaluedReading code.toNat).quality.code = code ∧ (unvaluedReading code.toNat).value = none := by
  have cases : code = 4 ∨ code = 5 ∨ code = 6 := by decide +revert
  rcases cases with rfl | rfl | rfl <;> exact ⟨rfl, rfl⟩

/-- The POST that the octets of a whole frame carry. -/
def Post.carried (o tag flags : Byte) (reading : Reading) (aux : Option (BitVec 16)) : Post :=
  ⟨o.setWidth 6, tag, flags.extractLsb' 5 3, reading, aux, flags.getLsbD 0⟩

section
variable (o : Byte) {tag flags : Byte}

theorem judgePost_of_head {rest : List Byte} (short : rest.length < 2) : judgePost o rest = .incomplete := by
  match rest, short with
  | [], _ | [_], _ => rfl

theorem judgePost_of_quality (tail : List Byte) (unknown : (flags.extractLsb' 2 3).toNat = 7) :
    judgePost o (tag :: flags :: tail) = .malformed .postQuality := if_pos unknown

/-! #### With a value -/

section
variable (valued : (flags.extractLsb' 2 3).toNat < 4)
include valued

theorem judgePost_of_value_aux (aux : flags.getLsbD 1 = true) (v1 v2 v3 a1 a2 hi lo : Byte) (rest : List Byte) :
    judgePost o (tag :: flags :: v1 :: v2 :: v3 :: a1 :: a2 :: hi :: lo :: rest) =
      judgeCheck [o, tag, flags, v1, v2, v3, a1, a2] hi lo (.post (.carried o tag flags
        (valuedReading (flags.extractLsb' 2 3).toNat (join24 v1 v2 v3)) (some (join16 a1 a2)))) := by
  rw [Post.carried, ← firstOctetSource_eq]
  exact (if_neg (by omega)).trans ((if_pos valued).trans (if_pos aux))

theorem judgePost_of_value (noAux : ¬ flags.getLsbD 1 = true) (v1 v2 v3 hi lo : Byte) (rest : List Byte) :
    judgePost o (tag :: flags :: v1 :: v2 :: v3 :: hi :: lo :: rest) =
      judgeCheck [o, tag, flags, v1, v2, v3] hi lo (.post (.carried o tag flags
        (valuedReading (flags.extractLsb' 2 3).toNat (join24 v1 v2 v3)) none)) := by
  rw [Post.carried, ← firstOctetSource_eq]
  exact (if_neg (by omega)).trans ((if_pos valued).trans (if_neg noAux))

end

/-! #### Without a value -/

section
variable (unvalued : 4 ≤ (flags.extractLsb' 2 3).toNat) (known : (flags.extractLsb' 2 3).toNat ≠ 7)
include unvalued known

theorem judgePost_of_aux (aux : flags.getLsbD 1 = true) (a1 a2 hi lo : Byte) (rest : List Byte) :
    judgePost o (tag :: flags :: a1 :: a2 :: hi :: lo :: rest) =
      judgeCheck [o, tag, flags, a1, a2] hi lo (.post (.carried o tag flags
        (unvaluedReading (flags.extractLsb' 2 3).toNat) (some (join16 a1 a2)))) := by
  rw [Post.carried, ← firstOctetSource_eq]
  exact (if_neg known).trans ((if_neg (Nat.not_lt.mpr unvalued)).trans (if_pos aux))

theorem judgePost_of_bare (noAux : ¬ flags.getLsbD 1 = true) (hi lo : Byte) (rest : List Byte) :
    judgePost o (tag :: flags :: hi :: lo :: rest) =
      judgeCheck [o, tag, flags] hi lo (.post (.carried o tag flags
        (unvaluedReading (flags.extractLsb' 2 3).toNat) none)) := by
  rw [Post.carried, ← firstOctetSource_eq]
  exact (if_neg known).trans ((if_neg (Nat.not_lt.mpr unvalued)).trans (if_neg noAux))

end

/-- The number of content octets that octet 3 announces (R24). -/
def postContent (flags : Byte) : Nat :=
  (if (flags.extractLsb' 2 3).toNat < 4 then 3 else 0) + (if flags.getLsbD 1 = true then 2 else 0)

theorem judgePost_of_short {tail : List Byte} (known : (flags.extractLsb' 2 3).toNat ≠ 7)
    (short : tail.length < postContent flags + 2) : judgePost o (tag :: flags :: tail) = .incomplete := by
  refine (if_neg known).trans ?_
  unfold postContent at short
  split_ifs at short with valued aux aux
  · refine (if_pos valued).trans ((if_pos aux).trans ?_)
    split
    · simp only [List.length_cons] at short
      omega
    · rfl
  · refine (if_pos valued).trans ((if_neg aux).trans ?_)
    split
    · simp only [List.length_cons] at short
      omega
    · rfl
  · refine (if_neg valued).trans ((if_pos aux).trans ?_)
    split
    · simp only [List.length_cons] at short
      omega
    · rfl
  · refine (if_neg valued).trans ((if_neg aux).trans ?_)
    split
    · simp only [List.length_cons] at short
      omega
    · rfl

/-- The octets of a carried POST are those that carried it. -/
theorem Post.octets_carried {reading : Reading} {field : Option (BitVec 16)} (post : o.toNat < 64)
    (code : reading.quality.code = flags.extractLsb' 2 3) (aux : field.isSome = flags.getLsbD 1) :
    (Post.carried o tag flags reading field).octets =
      withCheck (o :: tag :: flags :: (valueOctets reading.value ++ auxOctets field)) := by
  have same : (Post.carried o tag flags reading field).flags = flags := by
    rw [Post.flags]
    simp only [Post.carried, code, aux]
    exact fields_flags flags
  rw [Post.octets, same]
  simp only [Post.carried, zero_append_setWidth post]
  rfl

theorem octets16_join16 (a b : Byte) : octets16 (join16 a b) = [a, b] := octets16_append a b

theorem octets24_join24 (a b c : Byte) : octets24 (join24 a b c) = [a, b, c] := octets24_append a b c

/-- A whole POST is judged by its check, and the POST it carries has its octets. -/
theorem judgePost_of_whole {fields : List Byte} (hi lo : Byte) (rest : List Byte) (post : o.toNat < 64)
    (known : (flags.extractLsb' 2 3).toNat ≠ 7) (length : fields.length = postContent flags) :
    ∃ p : Post, judgePost o (tag :: flags :: (fields ++ hi :: lo :: rest)) =
      judgeCheck (o :: tag :: flags :: fields) hi lo (.post p) ∧ p.octets = withCheck (o :: tag :: flags :: fields) := by
  unfold postContent at length
  split_ifs at length with valued aux aux
  · match fields, length with
    | [v1, v2, v3, a1, a2], _ =>
      obtain ⟨code, value⟩ := code_valuedReading _ (join24 v1 v2 v3) valued
      refine ⟨_, judgePost_of_value_aux o valued aux v1 v2 v3 a1 a2 hi lo rest, ?_⟩
      rw [Post.octets_carried o post (field := some _) code aux.symm, value, valueOctets, auxOctets, octets24_join24, octets16_join16]
      rfl
  · match fields, length with
    | [v1, v2, v3], _ =>
      obtain ⟨code, value⟩ := code_valuedReading _ (join24 v1 v2 v3) valued
      refine ⟨_, judgePost_of_value o valued aux v1 v2 v3 hi lo rest, ?_⟩
      rw [Post.octets_carried o post (field := none) code (eq_false_of_ne_true aux).symm, value, valueOctets, octets24_join24]
      rfl
  · match fields, length with
    | [a1, a2], _ =>
      obtain ⟨code, value⟩ := code_unvaluedReading _ (Nat.le_of_not_lt valued) known
      refine ⟨_, judgePost_of_aux o (Nat.le_of_not_lt valued) known aux a1 a2 hi lo rest, ?_⟩
      rw [Post.octets_carried o post (field := some _) code aux.symm, value, auxOctets, octets16_join16]
      rfl
  · match fields, length with
    | [], _ =>
      obtain ⟨code, value⟩ := code_unvaluedReading _ (Nat.le_of_not_lt valued) known
      refine ⟨_, judgePost_of_bare o (Nat.le_of_not_lt valued) known aux hi lo rest, ?_⟩
      rw [Post.octets_carried o post (field := none) code (eq_false_of_ne_true aux).symm, value]
      rfl

end

/-! ### Frames as sent -/

theorem withCheck_append (body rest : List Byte) : withCheck body ++ rest =
    body ++ (check body).extractLsb' 8 8 :: (check body).extractLsb' 0 8 :: rest := by
  rw [withCheck_eq, List.append_assoc]
  rfl

theorem withCheck_of_eq {body : List Byte} {hi lo : Byte} (same : hi ++ lo = check body) :
    withCheck body = body ++ [hi, lo] := by
  rw [withCheck, ← same, octets16_append]

theorem judge_answer_octets {a : Answer} (rest : List Byte) (fits : a.payload.length ≤ 24) :
    judge (a.octets ++ rest) = .valid (.answer a) := by
  have kind := toNat_kind_append 1#2 a.source
  have station := a.source.isLt
  have length : (BitVec.ofNat 8 a.payload.length).toNat = a.payload.length := by
    rw [BitVec.toNat_ofNat, Nat.mod_eq_of_lt (by omega)]
  rw [BitVec.toNat_ofNat] at kind
  rw [Answer.octets, withCheck_append]
  refine (judge_of_answer _ (by omega) (by omega)).trans ?_
  refine (judgeAnswer_of_whole _ (length.trans_le fits) _ _ rest length.symm).trans ?_
  rw [setWidth_kind_append]
  exact judgeCheck_own _ _

theorem judge_request_octets {r : Request} (rest : List Byte) (target : r.target ≠ 0#6) (fits : r.args.length ≤ 6) :
    judge (r.octets ++ rest) = .valid (.request r) := by
  have kind := toNat_kind_append 2#2 r.source
  have kind' := toNat_kind_append 0#2 r.target
  have station := r.source.isLt
  have station' := r.target.isLt
  have length : (BitVec.ofNat 8 r.args.length).toNat = r.args.length := by
    rw [BitVec.toNat_ofNat, Nat.mod_eq_of_lt (by omega)]
  have named : (0#2 ++ r.target : Byte).toNat % 64 ≠ 0 := by
    have nonzero : r.target.toNat ≠ 0 := fun zero => target (BitVec.eq_of_toNat_eq zero)
    rw [kind', BitVec.toNat_ofNat]
    omega
  rw [BitVec.toNat_ofNat] at kind
  rw [Request.octets, withCheck_append]
  refine (judge_of_request _ (by omega) (by omega)).trans ?_
  refine (judgeRequest_of_whole _ named (length.trans_le fits) _ _ rest length.symm).trans ?_
  rw [setWidth_kind_append, setWidth_kind_append]
  exact judgeCheck_own _ _

theorem Post.carried_flags (p : Post) : Post.carried (0#2 ++ p.source) p.tag p.flags p.reading p.aux = p := by
  obtain ⟨group, -, -, alarm⟩ := flags_fields p.group p.reading.quality.code p.aux.isSome p.alarm
  rw [Post.carried, setWidth_kind_append, Post.flags, group, alarm]

theorem judge_post_octets {p : Post} (rest : List Byte) (low : p.source ≠ 0#6) (high : p.source ≠ 63#6) :
    judge (p.octets ++ rest) = .valid (.post p) := by
  have kind := toNat_kind_append 0#2 p.source
  rw [BitVec.toNat_ofNat] at kind
  have source : 1 ≤ p.source.toNat ∧ p.source.toNat ≤ 62 := by
    have zero : p.source.toNat ≠ 0 := fun e => low (BitVec.eq_of_toNat_eq e)
    have last : p.source.toNat ≠ 63 := fun e => high (BitVec.eq_of_toNat_eq e)
    have := p.source.isLt
    omega
  have own := p.carried_flags
  obtain ⟨-, code, aux, -⟩ := flags_fields p.group p.reading.quality.code p.aux.isSome p.alarm
  rw [← Post.flags] at code aux
  rw [Post.octets, withCheck_append]
  simp only [List.cons_append, List.nil_append]
  rw [judge_of_post _ (by omega) (by omega)]
  cases value : p.reading.value with
  | some v =>
    obtain ⟨reading, valued⟩ := valuedReading_code value
    rw [← code] at valued reading
    cases field : p.aux with
    | some a =>
      rw [field] at own aux
      simp only [valueOctets, auxOctets, octets24_eq, octets16_eq, List.cons_append, List.nil_append]
      rw [judgePost_of_value_aux _ valued aux, join24_extract, join16_extract, reading, own]
      exact judgeCheck_own _ _
    | none =>
      rw [field] at own aux
      simp only [valueOctets, auxOctets, octets24_eq, List.cons_append, List.nil_append]
      rw [judgePost_of_value _ valued (ne_true_of_eq_false aux), join24_extract, reading, own]
      exact judgeCheck_own _ _
  | none =>
    obtain ⟨reading, unvalued, known⟩ := unvaluedReading_code value
    rw [← code] at unvalued known reading
    cases field : p.aux with
    | some a =>
      rw [field] at own aux
      simp only [valueOctets, auxOctets, octets16_eq, List.cons_append, List.nil_append]
      rw [judgePost_of_aux _ unvalued known aux, join16_extract, reading, own]
      exact judgeCheck_own _ _
    | none =>
      rw [field] at own aux
      simp only [valueOctets, auxOctets, List.nil_append]
      rw [judgePost_of_bare _ unvalued known (ne_true_of_eq_false aux), reading, own]
      exact judgeCheck_own _ _

end Sys2Proof.Machine

namespace Sys2Proof

open Machine

/-- Settles O7: frames as sent, then the judgment by the first octet's kind and the length that the frame declares. -/
theorem sentFrameIsReceivedWhole : Obligations.SentFrameIsReceivedWhole := by
  refine ⟨fun p rest low high => judge_post_octets rest low high,
    fun r rest target fits => judge_request_octets rest target fits, fun a rest fits => judge_answer_octets rest fits, rfl,
    fun o rest => ⟨judge_of_kindCode rest, judge_of_postSource rest⟩, fun o low high => ?_, fun o low high => ?_,
    fun o low high => ⟨?_, fun o2 => ⟨fun zero rest => ?_, fun target => ⟨fun rest short => ?_, fun code len tail => ?_⟩⟩⟩⟩
  · refine ⟨fun rest short => (judge_of_post rest low high).trans (judgePost_of_head o short), fun tag flags tail => ?_⟩
    intro quality content judged
    have field : (flags.extractLsb' 2 3).toNat = quality := toNat_qualityField flags
    have announced : postContent flags = content := by
      simp only [postContent, field, auxBit_iff]
      rfl
    have judged' : judged = judgePost o (tag :: flags :: tail) := judge_of_post _ low high
    rw [judged']
    refine ⟨fun unknown => judgePost_of_quality o tail (field.trans unknown),
      fun known short => judgePost_of_short o (by rw [field]; exact known) (by rw [announced]; exact short),
      fun fields rest hi lo known length whole => ?_⟩
    obtain ⟨p, executed, octets⟩ := judgePost_of_whole (tag := tag) o hi lo rest (by omega) (by rw [field]; exact known)
      (length.trans announced.symm)
    rw [whole, executed]
    exact ⟨fun other => judgeCheck_of_ne _ other,
      fun same => ⟨p, judgeCheck_of_eq _ same, octets.trans (withCheck_of_eq same)⟩⟩
  · refine ⟨fun rest short => (judge_of_answer rest low high).trans (judgeAnswer_of_head o short),
      fun code status len tail => ?_⟩
    intro judged
    have judged' : judged = judgeAnswer o (code :: status :: len :: tail) := judge_of_answer _ low high
    rw [judged']
    refine ⟨judgeAnswer_of_long o tail, fun fits short => judgeAnswer_of_short o fits short,
      fun payload rest hi lo fits length whole => ?_⟩
    rw [whole, judgeAnswer_of_whole o fits hi lo rest length]
    exact ⟨judgeCheck_of_ne _, judgeCheck_of_eq _⟩
  · exact judge_of_request [] low high
  · exact (judge_of_request _ low high).trans (judgeRequest_of_target o rest zero)
  · exact (judge_of_request _ low high).trans (judgeRequest_of_head o target short)
  · intro judged
    have judged' : judged = judgeRequest o (o2 :: code :: len :: tail) := judge_of_request _ low high
    rw [judged']
    refine ⟨judgeRequest_of_long o target tail, fun fits short => judgeRequest_of_short o target fits short,
      fun args rest hi lo fits length whole => ?_⟩
    rw [whole, judgeRequest_of_whole o target fits hi lo rest length]
    exact ⟨judgeCheck_of_ne _, judgeCheck_of_eq _⟩

end Sys2Proof
end
